-- ==== Sys2Proof/Word.lean ====
section
/-! DEFINITION. Word.lean: the value types the spec gives as bit patterns or byte sequences (00_scope.md R10, R13,
R14, R18; 20_memory.md R50 to R52). -/

namespace Sys2Proof

/-- A byte, 0..255 (R18). -/
abbrev Byte := BitVec 8

/-- A 29-bit arbitration identifier (R50). -/
abbrev Ident := BitVec 29

/-- The sensor-select code at the encoder's input, `SEL_W = 3` bits (R10, R85). -/
abbrev Sel := BitVec 3

/-- The success and error counters, `CNT_W = 32` bits (R13). -/
abbrev Count := BitVec 32

/-- The last-update timestamp, `TS_W = 64` bits (R14). -/
abbrev Stamp := BitVec 64

/-- A payload: a completed reassembly buffer (R52). -/
abbrev Payload := List Byte

end Sys2Proof
end

