-- ==== Sys2Proof/Syntax.lean ====
section
/-! DEFINITION. Syntax.lean: the value types of 10_state.md section 1, and the instruction type: one constructor for
each of the 32 rows of spec/opcode_table.json. -/

namespace Sys2Proof

/-- The closed enumeration of sensors (R21). -/
inductive Sensor where
  | pumpCurrent
  | oilPressure
  | oilTemperature
  | wheelSpeeds
deriving DecidableEq, Repr

/-- One bus message (R22). `wf` in WellFormed.lean bounds the data to 8 bytes. -/
structure Frame where
  /-- true for an extended (29-bit) identifier -/
  ext : Bool
  id : Ident
  data : List Byte
deriving DecidableEq, Repr

/-- The raw integer source values the decoder read, one constructor per sensor kind (R23). -/
inductive Reading where
  | pump (pump solenoid : Int)
  | pressure (raw : Nat)
  | temperature (celsius : Int)
  | wheels (fr fl rr rl : Nat)
deriving DecidableEq, Repr

/-- The status of an operation (R24, R200). -/
inductive Status where
  | ok
  | unknownSensor
  | protocolViolation
  | decodeTooShort
  | timeout
  | transportError
  | unknownOperation
  | emptyFrame
  | kindMismatch
deriving DecidableEq, Repr

/-- Who performs a step (R87, R216): the letters `C`, `R` and `H` of a trace line, and the stand-alone operations. -/
inductive Agent where
  | collector
  | renderer
  | host
  | standAlone
deriving DecidableEq, Repr

/-- Where the host's bytes are offered (R43, R87): the three stand-alone ports, or a line of the trace. -/
inductive Port where
  | encIn
  | reasmIn
  | decIn
  | line
deriving DecidableEq, Repr

/-- One offer of the host: bytes at a port. A trace line is the step code's byte and then its operands. -/
structure Offer where
  port : Port
  bytes : List Byte
deriving DecidableEq, Repr

/-- The instructions: one constructor per row of spec/opcode_table.json, each with the operands of its rule. -/
inductive Instr where
  /-- `ENC.PUMP`: select code 0 at `ENC_IN` (R100) -/
  | encPump
  /-- `ENC.PRES`: select code 1 (R100) -/
  | encPres
  /-- `ENC.TEMP`: select code 2 (R100) -/
  | encTemp
  /-- `ENC.WHEEL`: select code 3 (R100) -/
  | encWheel
  /-- `ENC.UNKNOWN`: a select code that names no sensor (R101) -/
  | encUnknown (sel : Sel)
  /-- `REASM.EMPTY`: a frame with no data bytes at `REASM_IN` (R111) -/
  | reasmEmpty (f : Frame)
  /-- `REASM.SINGLE`: header bits S = 1, E = 1 (R113) -/
  | reasmSingle (f : Frame)
  /-- `REASM.START`: S = 1, E = 0 (R112) -/
  | reasmStart (f : Frame)
  /-- `REASM.CONT`: S = 0, E = 0, a buffer open for the key (R114) -/
  | reasmCont (f : Frame)
  /-- `REASM.END`: S = 0, E = 1, a buffer open for the key (R115) -/
  | reasmEnd (f : Frame)
  /-- `REASM.VIOLATION`: S = 0 and no buffer open for the key (R116) -/
  | reasmViolation (f : Frame)
  /-- `DEC.SHORT`: a payload of fewer than 6 bytes at `DEC_IN` (R131) -/
  | decShort (p : Payload)
  /-- `DEC.PUMP` (R133) -/
  | decPump (p : Payload)
  /-- `DEC.PRES` (R134) -/
  | decPres (p : Payload)
  /-- `DEC.TEMP` (R135) -/
  | decTemp (p : Payload)
  /-- `DEC.WHEEL` (R136) -/
  | decWheel (p : Payload)
  /-- `DEC.UNKNOWN`: an operation code outside the table (R132) -/
  | decUnknown (p : Payload)
  /-- `STEP.START`, carrying `CONNECT_RESULT(true)` (R236) -/
  | stepStart
  /-- `STEP.CONNFAIL`, carrying `CONNECT_RESULT(false)` (R237) -/
  | stepConnfail
  /-- `STEP.TOP` (R171) -/
  | stepTop
  /-- `STEP.ISSUE`, carrying `TX_RESULT(ok)` (R151) -/
  | stepIssue (ok : Bool)
  /-- `STEP.RX`, carrying the received frame (R153) -/
  | stepRx (f : Frame)
  /-- `STEP.TMO` (R154) -/
  | stepTmo
  /-- `STEP.RXERR` (R156) -/
  | stepRxerr
  /-- `STEP.PUB`, carrying `NOW(t)`, under no law (R174) -/
  | stepPub (t : Nat)
  /-- `STEP.END` (R176) -/
  | stepEnd
  /-- `STEP.SNAP` (R180) -/
  | stepSnap
  /-- `STEP.STOP` (R184) -/
  | stepStop
  /-- `STEP.SHUTDOWN`, carrying `DISCONNECT_DONE` (R238) -/
  | stepShutdown
  /-- `STEP.ENC`: the encoder as a trace line (R100, R101) -/
  | stepEnc (sel : Sel)
  /-- `STEP.REASM`: the reassembler as a trace line (R110) -/
  | stepReasm (f : Frame)
  /-- `STEP.DEC`: the decoder as a trace line (R130) -/
  | stepDec (p : Payload)
deriving DecidableEq, Repr

end Sys2Proof
end

