-- ==== Sys2Proof/Machine/Table.lean ====
section
/-! DEFINITION. Machine/Table.lean: the reassembly table `REASM` (10_state.md R27), a finite map from identifiers to
buffers, as a list with strictly rising keys and no entry for a key that is idle, so that equal tables are equal
lists. -/

namespace Sys2Proof.Machine

/-- The reassembly table: one entry per key that is accumulating (R27). -/
abbrev Table := List (Ident × List Byte)

/-- `REASM(k)`: `none` is `Idle`, `some b` is `Accumulating` with buffer `b` (R27). -/
def lookupBuf (k : Ident) : Table → Option (List Byte)
  | [] => none
  | (k', b) :: t => if k' = k then some b else lookupBuf k t

/-- `REASM(k) <- some b`, keeping the keys rising. -/
def openBuf (k : Ident) (b : List Byte) : Table → Table
  | [] => [(k, b)]
  | (k', b') :: t =>
    if k' = k then (k, b) :: t
    else if k.toNat < k'.toNat then (k, b) :: (k', b') :: t
    else (k', b') :: openBuf k b t

/-- `REASM(k) <- none`. -/
def closeBuf (k : Ident) : Table → Table
  | [] => []
  | (k', b) :: t => if k' = k then closeBuf k t else (k', b) :: closeBuf k t

/-- The canonical form: keys strictly rising. -/
abbrev Table.wf (t : Table) : Prop := t.Pairwise (fun a b => a.1.toNat < b.1.toNat)

end Sys2Proof.Machine
end

