-- ==== Sys2Proof/Config.lean ====
section
/-! DEFINITION. Config.lean: the parameters of 00_scope.md section 3 that a model takes as arguments, and the values
the spec leaves OPEN, as constants with no body. What the source fixes is in Machine/Constants.lean. -/

namespace Sys2Proof

/-- `MISMATCH_POLICY` (R11). -/
inductive MismatchPolicy where
  | discard
  | acceptEmbedded
deriving DecidableEq, Repr

/-- `OPCODE`, one 16-bit operation code per sensor (R8). -/
structure OpcodeTable where
  pump : BitVec 16
  pressure : BitVec 16
  temperature : BitVec 16
  wheels : BitVec 16
deriving DecidableEq, Repr

/-- `ROUND_ORDER`, the four sensors in polling order (R15). -/
structure RoundOrder where
  first : Sensor
  second : Sensor
  third : Sensor
  fourth : Sensor
deriving DecidableEq, Repr

/-- The parameters that decide what a step does. They are fixed at build and no step writes them (R41, R53). -/
structure Config where
  opcode : OpcodeTable
  policy : MismatchPolicy
  roundOrder : RoundOrder
deriving DecidableEq, Repr

/-- The unit (in seconds) and the epoch (in seconds) of the host's time input. -/
structure TimeBase where
  unit : Rat
  epoch : Rat
deriving DecidableEq, Repr, Inhabited

/-- `NOW_UNIT` (R14, D39), OPEN: no rule reads it. -/
opaque Config.nowUnit : TimeBase

/-- The non-zero exit status of a failed start, less one: OPEN (R39, D38). -/
opaque Config.exitFailCodeLessOne : Nat

/-- `EXIT_FAIL_CODE`: any non-zero value (R39, D38). -/
abbrev Config.exitFailCode : Nat := Config.exitFailCodeLessOne + 1

/-- The host's free choice, at its n-th occasion, among the frames it keeps: the place of the one it offers next, or none
for its next line of the trace instead (R152, R220; log 17). -/
opaque Config.hostOffers : Nat → Option Nat

/-- The transport parameter `interface` (R17), passed through and never read by the block. -/
opaque Config.interface : String

/-- The transport parameter `channel` (R17), passed through and never read by the block. -/
opaque Config.channel : String

end Sys2Proof
end

