-- ==== Sys2Proof/Machine/Constants.lean ====
section
/-! DEFINITION. Machine/Constants.lean: the read-only constant table (20_memory.md R53): wire constants, templates,
minima and scales of 00_scope.md R6, R7, R9, and the default configuration of R8, R11, R15. -/

namespace Sys2Proof.Machine

/-- `REQ_ID` (R6). -/
def reqId : Ident := 0x000FFFFE#29

/-- `RESP_ID` (R6). -/
def respId : Ident := 0x01204001#29

/-- `MODULE_ID` (R6). -/
def moduleId : Byte := 0x1A#8

/-- `LEN_BASE` (R6). -/
def lenBase : Nat := 0xC8

/-- `RESP_COUNT` (R6). -/
def respCount : Byte := 0x01#8

/-- `FRAME_BYTES` (R6). -/
def frameBytes : Nat := 8

/-- `BITRATE`, in bit/s: a parameter of `connect` only (R6, R17, R222). -/
def bitrate : Nat := 500000

/-- `TEMPLATE(s)` (R7). -/
def template : Sensor → List Byte
  | .pumpCurrent => [0xA6#8, 0x00#8, 0x05#8, 0x01#8]
  | .oilPressure => [0xA6#8, 0x00#8, 0x03#8, 0x01#8]
  | .oilTemperature => [0xA6#8, 0x00#8, 0x02#8, 0x01#8]
  | .wheelSpeeds => [0xA6#8, 0x00#8, 0x06#8, 0x01#8]

/-- `MIN_GENERIC` (R9). -/
def minGeneric : Nat := 6

/-- `MIN(s)` (R9). -/
def minLength : Sensor → Nat
  | .pumpCurrent => 9
  | .oilPressure => 6
  | .oilTemperature => 6
  | .wheelSpeeds => 14

/-- `MAX_PAYLOAD`, the default of a realisation's bound (R12); the model's own buffers are unbounded (R119). -/
def maxPayload : Nat := 64

/-- `SCALE_PRES = 0.0164` bar per count, as the exact rational of R137. -/
def scalePressure : Rat := 41 / 2500

/-- `SCALE_WHEEL = 0.0156` km/h per count, as the exact rational of R138. -/
def scaleWheel : Rat := 39 / 2500

/-- The default `OPCODE` table (R8): only the temperature's code is the source's, the others are decision D3. -/
def defaultOpcodes : OpcodeTable :=
  { pump := 0x0005#16, pressure := 0x0003#16, temperature := 0x0002#16, wheels := 0x0006#16 }

/-- The default `ROUND_ORDER` (R15, decision D17). -/
def defaultRoundOrder : RoundOrder :=
  { first := .pumpCurrent, second := .oilPressure, third := .oilTemperature, fourth := .wheelSpeeds }

/-- The default configuration (R8, R11, R15). -/
def defaultConfig : Config :=
  { opcode := defaultOpcodes, policy := .discard, roundOrder := defaultRoundOrder }

end Sys2Proof.Machine
end

