-- ==== Sys2Proof/Machine/Operands.lean ====
section
/-! DEFINITION. Machine/Operands.lean: every operand form the spec gives: the sensor-select code (R85), the header
byte of a response frame (R75 to R78), multi-byte fields and signedness (R20, R55, R56), the payload's fields (R80), and
the physical values that are functions of a reading (R137 to R139). -/

namespace Sys2Proof.Machine

/-! ### Sensors and select codes -/

/-- The sensor a select code names; codes 4 to 7 name none (R85). -/
def sensorOf (sel : Sel) : Option Sensor :=
  match sel.toNat with
  | 0 => some .pumpCurrent
  | 1 => some .oilPressure
  | 2 => some .oilTemperature
  | 3 => some .wheelSpeeds
  | _ => none

/-- The select code of a sensor (R85). -/
def selOf : Sensor → Sel
  | .pumpCurrent => 0#3
  | .oilPressure => 1#3
  | .oilTemperature => 2#3
  | .wheelSpeeds => 3#3

/-- `OPCODE(s)` (R8). -/
def opcodeOf (cfg : Config) : Sensor → BitVec 16
  | .pumpCurrent => cfg.opcode.pump
  | .oilPressure => cfg.opcode.pressure
  | .oilTemperature => cfg.opcode.temperature
  | .wheelSpeeds => cfg.opcode.wheels

/-- `ROUND_ORDER` as a list (R15). -/
def orderList (o : RoundOrder) : List Sensor := [o.first, o.second, o.third, o.fourth]

/-- `ROUND_ORDER[i]` (R15, R29). -/
def orderAt (o : RoundOrder) (i : Fin 4) : Sensor :=
  match i.val with
  | 0 => o.first
  | 1 => o.second
  | 2 => o.third
  | _ => o.fourth

/-- `kind(r)`: the sensor of a reading's constructor (R23). -/
def kindOf : Reading → Sensor
  | .pump _ _ => .pumpCurrent
  | .pressure _ => .oilPressure
  | .temperature _ => .oilTemperature
  | .wheels _ _ _ _ => .wheelSpeeds

/-! ### The header byte -/

/-- The start bit `S`, bit 7 of the header (R75). -/
def hdrStart (h : Byte) : Bool := h.getLsbD 7

/-- The end bit `E`, bit 6 of the header (R75). -/
def hdrEnd (h : Byte) : Bool := h.getLsbD 6

/-- The nibble `LEN`, bits 3:0 of the header (R75); bits 5:4 are read by no rule (R78). -/
def hdrLen (h : Byte) : Nat := h.toNat % 16

/-- The start bit of a frame's header; a frame with no data has none. -/
def frameStart (f : Frame) : Bool :=
  match f.data with
  | [] => false
  | h :: _ => hdrStart h

/-- The end bit of a frame's header; a frame with no data has none. -/
def frameEnd (f : Frame) : Bool :=
  match f.data with
  | [] => false
  | h :: _ => hdrEnd h

/-- The half-open slice `p[a..b)` (R19). -/
def slice (p : List Byte) (a b : Nat) : List Byte := (p.drop a).take (b - a)

/-- `c(f) = f.data[1 .. min(1 + LEN, len))`: the bytes a frame without the start bit contributes (R77, R114, R120);
a frame with no data contributes none (R111). -/
def contribution (f : Frame) : List Byte :=
  match f.data with
  | [] => []
  | h :: _ => slice f.data 1 (min (1 + hdrLen h) f.data.length)

/-! ### Multi-byte fields -/

/-- `be16(p, i) = 256 * p[i] + p[i+1]` (R20, R55), over any way `rd` of reading the payload's bytes. -/
def be16 (rd : Nat → Byte) (i : Nat) : Nat := 256 * (rd i).toNat + (rd (i + 1)).toNat

/-- `sext_N(v)`, the two's-complement value of an N-bit pattern (R20; for 16 bits decision D13). -/
def sext (n v : Nat) : Int := if v < 2 ^ (n - 1) then (v : Int) else (v : Int) - (2 ^ n : Nat)

/-- The byte of a sequence at an index. The decoder reads no index at or beyond the length (R58). -/
def byteAt (p : List Byte) (i : Nat) : Byte := p.getD i 0#8

/-- The big-endian value of a byte sequence, byte 0 the most significant (R55, R72). -/
def beValue (p : List Byte) : Nat := p.foldl (fun v b => 256 * v + b.toNat) 0

/-! ### The four sensor layouts (R80) -/

/-- R133: pump current and solenoid, signed 16 bits at 5 and 7; 9 bytes at least. -/
def parsePump (n : Nat) (rd : Nat → Byte) : Option Reading × Status :=
  if n < minLength .pumpCurrent then (none, .decodeTooShort)
  else (some (.pump (sext 16 (be16 rd 5)) (sext 16 (be16 rd 7))), .ok)

/-- R134: oil pressure, unsigned 8 bits at 5. The minimum of 6 bytes is `MIN_GENERIC` again. -/
def parsePres (n : Nat) (rd : Nat → Byte) : Option Reading × Status :=
  if n < minLength .oilPressure then (none, .decodeTooShort)
  else (some (.pressure (rd 5).toNat), .ok)

/-- R135: oil temperature, signed 8 bits at 5. The minimum of 6 bytes is `MIN_GENERIC` again. -/
def parseTemp (n : Nat) (rd : Nat → Byte) : Option Reading × Status :=
  if n < minLength .oilTemperature then (none, .decodeTooShort)
  else (some (.temperature (sext 8 (rd 5).toNat)), .ok)

/-- R136: wheel speeds, unsigned 16 bits at 6, 8, 10 and 12; 14 bytes at least. -/
def parseWheel (n : Nat) (rd : Nat → Byte) : Option Reading × Status :=
  if n < minLength .wheelSpeeds then (none, .decodeTooShort)
  else (some (.wheels (be16 rd 6) (be16 rd 8) (be16 rd 10) (be16 rd 12)), .ok)

/-- The dispatch of R130 on the embedded operation code, in the order of its case (R81, R140; log 11). -/
def sensorOfOp (cfg : Config) (op : Nat) : Option Sensor :=
  if op = (opcodeOf cfg .pumpCurrent).toNat then some .pumpCurrent
  else if op = (opcodeOf cfg .oilPressure).toNat then some .oilPressure
  else if op = (opcodeOf cfg .oilTemperature).toNat then some .oilTemperature
  else if op = (opcodeOf cfg .wheelSpeeds).toNat then some .wheelSpeeds
  else none

/-- `DEC` (R130) on a payload of `n` bytes read through `rd`: generic length, then operation code, then the sensor's
own length (R211). -/
def decView (cfg : Config) (n : Nat) (rd : Nat → Byte) : Option Reading × Status :=
  if n < minGeneric then (none, .decodeTooShort)
  else
    match sensorOfOp cfg (be16 rd 3) with
    | some .pumpCurrent => parsePump n rd
    | some .oilPressure => parsePres n rd
    | some .oilTemperature => parseTemp n rd
    | some .wheelSpeeds => parseWheel n rd
    | none => (none, .unknownOperation)

/-- `DEC p` (R130). -/
def dec (cfg : Config) (p : Payload) : Option Reading × Status := decView cfg p.length (byteAt p)

/-! ### Physical values (exact rationals, decision D12) -/

/-- `bar(r) = raw * 41 / 2500` (R137). -/
def barOf (raw : Nat) : Rat := raw * scalePressure

/-- `kmh(v) = v * 39 / 2500` (R138). -/
def kmhOf (v : Nat) : Rat := v * scaleWheel

/-- `fahrenheit(r) = celsius * 9 / 5 + 32` (R139): derived, never stored. -/
def fahrenheitOf (celsius : Int) : Rat := celsius * 9 / 5 + 32

/-- The physical values of a reading in the order of its fields: raw counts for currents, bar, °C, km/h (R137 to
R139). -/
def physical : Reading → List Rat
  | .pump p s => [p, s]
  | .pressure raw => [barOf raw]
  | .temperature c => [c]
  | .wheels fr fl rr rl => [kmhOf fr, kmhOf fl, kmhOf rr, kmhOf rl]

/-- The ranges of a reading's raw values (R23). -/
def readingInRange : Reading → Bool
  | .pump p s => decide (-32768 ≤ p ∧ p ≤ 32767 ∧ -32768 ≤ s ∧ s ≤ 32767)
  | .pressure raw => decide (raw ≤ 255)
  | .temperature c => decide (-128 ≤ c ∧ c ≤ 127)
  | .wheels fr fl rr rl => decide (fr ≤ 65535 ∧ fl ≤ 65535 ∧ rr ≤ 65535 ∧ rl ≤ 65535)

end Sys2Proof.Machine
end

