-- ==== Sys2Proof/WellFormed.lean ====
section
/-! DEFINITION. WellFormed.lean: which configurations, frames and instructions the spec admits: codes and sensors each
once (R8, R15), at most 8 data bytes (R22), and each row's own class (R76, R80, R82, R83, R85). -/

namespace Sys2Proof

open Sys2Proof.Machine

/-- The four operation codes are pairwise distinct (R81: each code names one sensor) and each sensor stands once in
the round order (R15). -/
def Config.wf (cfg : Config) : Bool :=
  decide ([cfg.opcode.pump, cfg.opcode.pressure, cfg.opcode.temperature, cfg.opcode.wheels].Nodup)
    && decide ((orderList cfg.roundOrder).Nodup)

/-- At most 8 data bytes (R22, R51). -/
def Frame.wf (f : Frame) : Bool := decide (f.data.length ≤ 8)

/-- The header classes of R76, read from a frame's first data byte. -/
def Frame.headerIs (f : Frame) (start stop : Bool) : Bool :=
  match f.data with
  | [] => false
  | h :: _ => hdrStart h == start && hdrEnd h == stop

/-- The payload's operation code names this sensor (R79, R81), the payload being long enough to read it (R83). -/
def opIs (cfg : Config) (p : Payload) (s : Sensor) : Bool :=
  decide (minGeneric ≤ p.length) && decide (be16 (byteAt p) 3 = (opcodeOf cfg s).toNat)

/-- The instructions the encodings of 30_encoding.md admit under a configuration. -/
def Instr.wf (cfg : Config) : Instr → Bool
  | .encPump => true
  | .encPres => true
  | .encTemp => true
  | .encWheel => true
  | .encUnknown sel => decide (4 ≤ sel.toNat)
  | .reasmEmpty f => decide (f.data = [])
  | .reasmSingle f => f.wf && f.headerIs true true
  | .reasmStart f => f.wf && f.headerIs true false
  | .reasmCont f => f.wf && f.headerIs false false
  | .reasmEnd f => f.wf && f.headerIs false true
  | .reasmViolation f => f.wf && (f.headerIs false false || f.headerIs false true)
  | .decShort p => decide (p.length < minGeneric)
  | .decPump p => opIs cfg p .pumpCurrent
  | .decPres p => opIs cfg p .oilPressure
  | .decTemp p => opIs cfg p .oilTemperature
  | .decWheel p => opIs cfg p .wheelSpeeds
  | .decUnknown p =>
    decide (minGeneric ≤ p.length) && !opIs cfg p .pumpCurrent && !opIs cfg p .oilPressure
      && !opIs cfg p .oilTemperature && !opIs cfg p .wheelSpeeds
  | .stepStart => true
  | .stepConnfail => true
  | .stepTop => true
  | .stepIssue _ => true
  | .stepRx f => f.wf
  | .stepTmo => true
  | .stepRxerr => true
  | .stepPub _ => true
  | .stepEnd => true
  | .stepSnap => true
  | .stepStop => true
  | .stepShutdown => true
  | .stepEnc _ => true
  | .stepReasm f => f.wf
  | .stepDec _ => true

end Sys2Proof
end

