-- ==== Sys2Proof/Decode.lean ====
section
/-! DEFINITION. Decode.lean: from the host's bytes at a port to an instruction, total, rejecting by name; then the
encoder. The formats are those of 30_encoding.md: SEL3 (R85), HDR8 (R75, R76), OPC16 (R79 to R83), STEP4 (R87).
The bytes of an operand field are the model's own layout (log 2). -/

namespace Sys2Proof

open Sys2Proof.Machine

/-- Why an offer is no instruction. Each is a refusal of the input, before any step is taken. -/
inductive Reject where
  /-- a trace line with no step code, or a select port with no code -/
  | noCode
  /-- a step code above 4 bits -/
  | codeTooWide
  /-- step code 0xF (R87, I22): "a trace line with code 0xF is refused" -/
  | reservedStepCode
  /-- a select code above 3 bits (R85) -/
  | selTooWide
  /-- an operand field is missing -/
  | missingOperand
  /-- bytes after the last operand -/
  | trailingBytes
  /-- a send result that is neither 1 (ok) nor 0 (fail) (95_test_vectors.md section 8) -/
  | badSendResult
  /-- an identifier above 29 bits (R50) -/
  | identTooWide
  /-- a frame of more than 8 data bytes (R22) -/
  | frameTooLong
deriving DecidableEq, Repr

/-! ### Decoding -/

/-- A frame from its bytes: the identifier as 8 hexadecimal digits (R87), that is 4 bytes, then 0 to 8 data bytes. The
top bit of the identifier's word marks a frame with a standard identifier (log 2). -/
def decodeFrame (bs : List Byte) : Except Reject Frame :=
  match bs with
  | b0 :: b1 :: b2 :: b3 :: data =>
    let w := beValue [b0, b1, b2, b3]
    if w % 2 ^ 31 < 2 ^ 29 then
      if data.length ≤ 8 then .ok { ext := decide (w < 2 ^ 31), id := BitVec.ofNat 29 (w % 2 ^ 31), data := data }
      else .error .frameTooLong
    else .error .identTooWide
  | _ => .error .missingOperand

/-- A select code from its one byte (R85). -/
def decodeSel (bs : List Byte) : Except Reject Sel :=
  match bs with
  | [] => .error .noCode
  | [b] => if b.toNat < 8 then .ok (BitVec.ofNat 3 b.toNat) else .error .selTooWide
  | _ => .error .trailingBytes

/-- The row of a select code (R85; the SEL3 rows of the table). -/
def classifySel (sel : Sel) : Instr :=
  match sensorOf sel with
  | some .pumpCurrent => .encPump
  | some .oilPressure => .encPres
  | some .oilTemperature => .encTemp
  | some .wheelSpeeds => .encWheel
  | none => .encUnknown sel

/-- The row of a frame at `REASM_IN`: its header class (R76), and for a frame without the start bit whether a buffer is
open for its key, which the table's rows R114, R115 and R116 differ by (log 8). -/
def classifyFrame (bufs : Table) (f : Frame) : Instr :=
  match f.data with
  | [] => .reasmEmpty f
  | h :: _ =>
    if hdrStart h then (if hdrEnd h then .reasmSingle f else .reasmStart f)
    else if lookupBuf f.id bufs = none then .reasmViolation f
    else if hdrEnd h then .reasmEnd f
    else .reasmCont f

/-- The row of a payload at `DEC_IN`: its length class (R83), then its operation code (R81). -/
def classifyPayload (cfg : Config) (p : Payload) : Instr :=
  if p.length < minGeneric then .decShort p
  else
    match sensorOfOp cfg (be16 (byteAt p) 3) with
    | some .pumpCurrent => .decPump p
    | some .oilPressure => .decPres p
    | some .oilTemperature => .decTemp p
    | some .wheelSpeeds => .decWheel p
    | none => .decUnknown p

/-- A step with no operand. -/
def noOperand (i : Instr) (ops : List Byte) : Except Reject Instr :=
  match ops with
  | [] => .ok i
  | _ :: _ => .error .trailingBytes

/-- The operand of `ISSUE`: `TX_RESULT` as 1 (ok) or 0 (fail). -/
def decodeIssue (ops : List Byte) : Except Reject Instr :=
  match ops with
  | [] => .error .missingOperand
  | [b] => if b = 1#8 then .ok (.stepIssue true) else if b = 0#8 then .ok (.stepIssue false) else .error .badSendResult
  | _ => .error .trailingBytes

/-- The operand of `PUB`: `NOW(t)`, a big-endian number of one or more bytes. -/
def decodePub (ops : List Byte) : Except Reject Instr :=
  match ops with
  | [] => .error .missingOperand
  | _ :: _ => .ok (.stepPub (beValue ops))

/-- A trace line's step from its code and operand bytes (R87). -/
def decodeStep (code : Nat) (ops : List Byte) : Except Reject Instr :=
  match code with
  | 0x0 => (decodeSel ops).map .stepEnc
  | 0x1 => (decodeFrame ops).map .stepReasm
  | 0x2 => .ok (.stepDec ops)
  | 0x3 => noOperand .stepStart ops
  | 0x4 => noOperand .stepConnfail ops
  | 0x5 => noOperand .stepTop ops
  | 0x6 => decodeIssue ops
  | 0x7 => (decodeFrame ops).map .stepRx
  | 0x8 => noOperand .stepTmo ops
  | 0x9 => noOperand .stepRxerr ops
  | 0xA => decodePub ops
  | 0xB => noOperand .stepEnd ops
  | 0xC => noOperand .stepSnap ops
  | 0xD => noOperand .stepStop ops
  | 0xE => noOperand .stepShutdown ops
  | 0xF => .error .reservedStepCode
  | _ => .error .codeTooWide

/-- The decoder: which instruction an offer is, under a configuration (whose operation codes separate the DEC rows)
and the reassembly table (which separates `REASM.VIOLATION` from `REASM.CONT` and `REASM.END`). -/
def decode (cfg : Config) (bufs : Table) (o : Offer) : Except Reject Instr :=
  match o.port with
  | .encIn => (decodeSel o.bytes).map classifySel
  | .reasmIn => (decodeFrame o.bytes).map (classifyFrame bufs)
  | .decIn => .ok (classifyPayload cfg o.bytes)
  | .line =>
    match o.bytes with
    | [] => .error .noCode
    | c :: ops => decodeStep c.toNat ops

/-! ### Encoding -/

/-- The 4 bytes of an identifier's word, most significant first, and the data bytes. -/
def encodeFrame (f : Frame) : List Byte :=
  let w := (if f.ext then 0 else 2 ^ 31) + f.id.toNat
  [BitVec.ofNat 8 (w / 2 ^ 24), BitVec.ofNat 8 (w / 2 ^ 16 % 256), BitVec.ofNat 8 (w / 2 ^ 8 % 256),
    BitVec.ofNat 8 (w % 256)] ++ f.data

/-- The select code's byte (R85). -/
def encodeSel (sel : Sel) : List Byte := [BitVec.ofNat 8 sel.toNat]

/-- The digits of a number to base 256, least significant first, no more than `fuel` of them. -/
def digits256 : Nat → Nat → List Byte
  | 0, _ => []
  | fuel + 1, t => if t = 0 then [] else BitVec.ofNat 8 (t % 256) :: digits256 fuel (t / 256)

/-- The bytes of `NOW(t)`, most significant first: one byte at least. -/
def encodeTime (t : Nat) : List Byte := if t = 0 then [0#8] else (digits256 t t).reverse

/-- A trace line (R87). -/
def encodeLine (code : Byte) (ops : List Byte) : Offer := { port := .line, bytes := code :: ops }

/-- The encoder, from the same tables: select codes (R85), frames (R87), payloads (R79) and step codes (R87). -/
def encode : Instr → Offer
  | .encPump => { port := .encIn, bytes := encodeSel 0#3 }
  | .encPres => { port := .encIn, bytes := encodeSel 1#3 }
  | .encTemp => { port := .encIn, bytes := encodeSel 2#3 }
  | .encWheel => { port := .encIn, bytes := encodeSel 3#3 }
  | .encUnknown sel => { port := .encIn, bytes := encodeSel sel }
  | .reasmEmpty f => { port := .reasmIn, bytes := encodeFrame f }
  | .reasmSingle f => { port := .reasmIn, bytes := encodeFrame f }
  | .reasmStart f => { port := .reasmIn, bytes := encodeFrame f }
  | .reasmCont f => { port := .reasmIn, bytes := encodeFrame f }
  | .reasmEnd f => { port := .reasmIn, bytes := encodeFrame f }
  | .reasmViolation f => { port := .reasmIn, bytes := encodeFrame f }
  | .decShort p => { port := .decIn, bytes := p }
  | .decPump p => { port := .decIn, bytes := p }
  | .decPres p => { port := .decIn, bytes := p }
  | .decTemp p => { port := .decIn, bytes := p }
  | .decWheel p => { port := .decIn, bytes := p }
  | .decUnknown p => { port := .decIn, bytes := p }
  | .stepStart => encodeLine 0x3#8 []
  | .stepConnfail => encodeLine 0x4#8 []
  | .stepTop => encodeLine 0x5#8 []
  | .stepIssue ok => encodeLine 0x6#8 [if ok then 1#8 else 0#8]
  | .stepRx f => encodeLine 0x7#8 (encodeFrame f)
  | .stepTmo => encodeLine 0x8#8 []
  | .stepRxerr => encodeLine 0x9#8 []
  | .stepPub t => encodeLine 0xA#8 (encodeTime t)
  | .stepEnd => encodeLine 0xB#8 []
  | .stepSnap => encodeLine 0xC#8 []
  | .stepStop => encodeLine 0xD#8 []
  | .stepShutdown => encodeLine 0xE#8 []
  | .stepEnc sel => encodeLine 0x0#8 (encodeSel sel)
  | .stepReasm f => encodeLine 0x1#8 (encodeFrame f)
  | .stepDec p => encodeLine 0x2#8 p

/-- The reassembly table is one in which an instruction can be selected: rows R114 and R115 need a buffer open for the
frame's key, row R116 needs none (the table's notes; log 8). -/
def rowFits (bufs : Table) : Instr → Bool
  | .reasmCont f => (lookupBuf f.id bufs).isSome
  | .reasmEnd f => (lookupBuf f.id bufs).isSome
  | .reasmViolation f => (lookupBuf f.id bufs).isNone
  | _ => true

/-! ### The words of opcode_table.json -/

/-- The zero operands of a step code: the shortest operand bytes, all zero, that its line takes. -/
def zeroOperands (code : Nat) : List Byte :=
  match code with
  | 0x0 => [0#8]
  | 0x1 => [0#8, 0#8, 0#8, 0#8]
  | 0x6 => [0#8]
  | 0x7 => [0#8, 0#8, 0#8, 0#8]
  | 0xA => [0#8]
  | _ => []

/-- The offer a word of the table stands for. The table has four formats at four ports and a bare word does not name
its port: the port is told from the row's size and, among the 8-bit words, from the value (log 9). A 16-bit word
is the operation code at payload bytes 3 and 4, big-endian, the payload's other 12 bytes zero. -/
def offerOfTableWord (nbits w : Nat) : Option Offer :=
  if nbits = 16 then
    some { port := .decIn,
           bytes := [0#8, 0#8, 0#8, BitVec.ofNat 8 (w / 256 % 256), BitVec.ofNat 8 (w % 256), 0#8, 0#8, 0#8, 0#8, 0#8,
             0#8, 0#8, 0#8, 0#8] }
  else if nbits = 3 then
    some { port := .encIn, bytes := [BitVec.ofNat 8 (w % 8)] }
  else if nbits = 4 then
    some { port := .line, bytes := BitVec.ofNat 8 (w % 16) :: zeroOperands (w % 16) }
  else if nbits = 8 then
    if w < 16 then some { port := .line, bytes := BitVec.ofNat 8 w :: zeroOperands w }
    else some { port := .reasmIn, bytes := [0#8, 0#8, 0#8, 0#8, BitVec.ofNat 8 (w % 256)] }
  else none

/-- A header word whose row, `REASM.END` (R115), is selected only with a buffer open for its frame's key (log 9). -/
def needsBuffer (nbits w : Nat) : Bool := decide (nbits = 8 ∧ 0x40 ≤ w % 256 ∧ w % 256 < 0x80)

/-- The reassembly table with the buffer open that a word's row needs: key 0, one byte of a start frame. -/
def tableForWord (nbits w : Nat) (t : Table) : Table :=
  if needsBuffer nbits w then openBuf 0#29 [0x80#8] t else t

/-- The instruction the decoder reads from a word of the table, under the default configuration and with no buffer
open but the one the word's row needs. -/
def decodeTableWord (nbits w : Nat) : Option Instr :=
  match offerOfTableWord nbits w with
  | none => none
  | some o =>
    match decode defaultConfig (tableForWord nbits w []) o with
    | .ok i => some i
    | .error _ => none

end Sys2Proof
end

