-- ==== Sys2Proof/Machine/State.lean ====
section
/-! DEFINITION. Machine/State.lean: every piece of state the spec gives the block (10_state.md R27 to R40), its
read-only configuration (R41), its output ports' record (R44), the host's offers still to come (R43), and
the frames it keeps (R210). Plain data. State.reset holds the values of R45. -/

namespace Sys2Proof.Machine

/-- `CST`, the collector's control state (R29). -/
inductive CollectorState where
  | cInit
  | cTop
  | cIssue
  | cWait
  | cPub
  | cEnd
  | cExit
deriving DecidableEq, Repr

/-- `RST`, the renderer's control state (R38). -/
inductive RendererState where
  | rInit
  | rTop
  | rExit
deriving DecidableEq, Repr

/-- `CONN`, the block's view of the transport (R39). -/
inductive Conn where
  | connNone
  | connUp
  | connDown
deriving DecidableEq, Repr

/-- `EXIT`'s two decided values (R39). -/
inductive ExitStatus where
  | exitOk
  | exitFail
deriving DecidableEq, Repr

/-- The reasons of the model's fault mark `FAULT` (R40). -/
inductive FaultReason where
  | pollBusy
deriving DecidableEq, Repr

/-- `DASH`, the Shared Dashboard State (R31); a `Snapshot` has exactly these seven fields (R36). -/
structure Dash where
  temp : Option Reading
  pres : Option Reading
  curr : Option Reading
  wheel : Option Reading
  succ : Count
  err : Count
  last : Option Stamp
deriving DecidableEq, Repr

/-- The renderer's copy of `DASH` (R36). -/
abbrev Snapshot := Dash

/-- What the block presents on its output ports (R44). -/
inductive Output where
  | tx (f : Frame)
  | pollDone (s : Sensor) (st : Status) (r : Option Reading)
  | evt (st : Status)
  | snapOut (x : Snapshot)
  | disconnect
  | exitOut (e : ExitStatus)
deriving DecidableEq, Repr

/-- What an operation returns beside its status: a request frame (R100), a completed payload (R110) or a reading
(R130). -/
inductive Value where
  | frame (f : Frame)
  | payload (p : Payload)
  | reading (r : Reading)
deriving DecidableEq, Repr

/-- The status an operation ended with (R200) and the value it returned. -/
structure Report where
  status : Status
  value : Option Value
deriving DecidableEq, Repr

/-- The state of the block. -/
structure State where
  /-- the configuration, read-only (R41) -/
  cfg : Config
  /-- `REASM` (R27) -/
  reasm : Table
  /-- `CST` (R29) -/
  cst : CollectorState
  /-- `IDX` (R29) -/
  idx : Fin 4
  /-- `ROUND_OK` (R30) -/
  roundOk : Bool
  /-- `ROUND_ERR` (R30) -/
  roundErr : Bool
  /-- `PEND` (R30) -/
  pend : Option Reading
  /-- `DASH` (R31) -/
  dash : Dash
  /-- `RUN` (R35) -/
  run : Bool
  /-- `SNAP` (R36) -/
  snap : Option Snapshot
  /-- `RST` (R38) -/
  rst : RendererState
  /-- `CONN` (R39) -/
  conn : Conn
  /-- `EXIT` (R39) -/
  exit : Option ExitStatus
  /-- `FAULT` (R40) -/
  fault : Option FaultReason
  /-- what the output ports have presented since reset, oldest first (R44, R239; log 7) -/
  out : List Output
  /-- the report of the last operation performed (R200; log 6) -/
  ret : Option Report
  /-- the host's offers still to come, in the order the block takes them (R43, R87, R220; log 1) -/
  trace : List Offer
  /-- the frames offered while `RX` was not enabled, which wait with the host, oldest first (R152, R210; log 17) -/
  held : List Frame
  /-- how many times the host has chosen among the frames it keeps; the free value's counter (log 17) -/
  picks : Nat
deriving DecidableEq, Repr

/-- Why a step stops the machine. Safe: nothing is claimed of a run beyond such a stop. -/
inductive Fault where
  /-- raised by `step` alone, when the trace holds no further offer: the host offers nothing, so no step is taken
  (I18 `stuck`; log 12). Safe. -/
  | hostSilent
deriving DecidableEq, Repr

/-- Why an offer is not run. Safe: nothing is claimed of a run beyond a refusal. -/
inductive Refusal where
  /-- raised by `exec` for an instruction with no meaning; no arm of this model does. Safe. -/
  | notModelled (mnemonic : String)
  /-- raised by `step` for bytes that are no instruction, step code 0xF among them (R87, I22; log 2). Safe. -/
  | undecodable (r : Reject)
deriving DecidableEq, Repr

/-- `DASH` at reset (R45). -/
def Dash.reset : Dash :=
  { temp := none, pres := none, curr := none, wheel := none, succ := 0, err := 0, last := none }

/-- The block right after reset (R45, R230). -/
def State.reset : State :=
  { cfg := defaultConfig
    reasm := []
    cst := .cInit
    idx := 0
    roundOk := false
    roundErr := false
    pend := none
    dash := Dash.reset
    run := false
    snap := none
    rst := .rInit
    conn := .connNone
    exit := none
    fault := none
    out := []
    ret := none
    trace := []
    held := []
    picks := 0 }

end Sys2Proof.Machine
end

