-- ==== Sys2Proof/Machine/Flags.lean ====
section
/-! DEFINITION. Machine/Flags.lean: the block's flags (10_state.md R42), the field group of a sensor kind (R33), the
4-bit status codes (R200), the exit status numbers (R39), and which events are pulsed on `EVT` (R44, C11). -/

namespace Sys2Proof.Machine

/-- The 4-bit code of a status on the `POLL_DONE` and `EVT` ports (R200); 0x9 to 0xF are never produced. -/
def statusCode : Status → BitVec 4
  | .ok => 0x0#4
  | .unknownSensor => 0x1#4
  | .protocolViolation => 0x2#4
  | .decodeTooShort => 0x3#4
  | .timeout => 0x4#4
  | .transportError => 0x5#4
  | .unknownOperation => 0x6#4
  | .emptyFrame => 0x7#4
  | .kindMismatch => 0x8#4

/-- The exit status as a number: 0 on a clean end, any non-zero value on a failed start (R39, D38). -/
def exitCode : ExitStatus → Nat
  | .exitOk => 0
  | .exitFail => Config.exitFailCode

/-- The statuses pulsed on `EVT` (R44, R200; 90_conflicts.md C11). -/
def isEvent : Status → Bool
  | .protocolViolation => true
  | .emptyFrame => true
  | .kindMismatch => true
  | .ok => false
  | .unknownSensor => false
  | .decodeTooShort => false
  | .timeout => false
  | .transportError => false
  | .unknownOperation => false

/-- The `EVT` pulse of a status, if it has one. -/
def eventOf (st : Status) : List Output := if isEvent st then [.evt st] else []

/-- `group(s)`: the field group of a sensor kind (R33). -/
def groupOf (d : Dash) : Sensor → Option Reading
  | .oilTemperature => d.temp
  | .oilPressure => d.pres
  | .pumpCurrent => d.curr
  | .wheelSpeeds => d.wheel

/-- `group(s) <- some r`, the whole group at once (R33, R174). -/
def setGroup (d : Dash) (s : Sensor) (r : Reading) : Dash :=
  match s with
  | .oilTemperature => { d with temp := some r }
  | .oilPressure => { d with pres := some r }
  | .pumpCurrent => { d with curr := some r }
  | .wheelSpeeds => { d with wheel := some r }

/-- The presence bit of a field group (R42). -/
def groupPresent (d : Dash) (s : Sensor) : Bool := (groupOf d s).isSome

end Sys2Proof.Machine
end

