-- ==== Sys2Proof/Machine/Ops.lean ====
section
/-! DEFINITION. Machine/Ops.lean: the shared operations of the meanings: the encoder (40_encoder.md), the reassembler
step (41_reassembler.md R110), the poll's kind check (R155), the collector's advance (R175), the publish and the
round-end count (R174, R176), and the end of a poll by a transport error. The block has no exception entry and no
return from one (R212, R213): an operation's status is its result, recorded by `State.answer`. -/

namespace Sys2Proof.Machine

/-! ### Reporting -/

/-- `emit`: present a value on an output port in this step (R44). -/
def State.emit (s : State) (os : List Output) : State := { s with out := s.out ++ os }

/-- The operation ends with this status and returns this value (R200; log 6). -/
def State.answer (s : State) (st : Status) (v : Option Value) : State := { s with ret := some { status := st, value := v } }

/-! ### The encoder -/

/-- The request frame of a sensor (R70, R71, R100): length prefix, module identifier, template, response count, zero
padding to 8 bytes. -/
def requestFrame (s : Sensor) : Frame :=
  let t := template s
  let d := [BitVec.ofNat 8 ((lenBase + t.length + 1) % 256), moduleId] ++ t ++ [respCount]
  { ext := true, id := reqId, data := d ++ List.replicate (frameBytes - d.length) 0#8 }

/-- `ENC sel` (R100, R101). -/
def enc (sel : Sel) : Option Frame × Status :=
  match sensorOf sel with
  | some s => (some (requestFrame s), .ok)
  | none => (none, .unknownSensor)

/-- `ENC` as an operation of the block: it returns the frame and changes no state element (R102). -/
def State.encodeRequest (s : State) (sel : Sel) : State :=
  s.answer (enc sel).2 ((enc sel).1.map .frame)

/-! ### The reassembler -/

/-- What one reassembler step leaves: the table, the completed payload if any, and the status. -/
structure Reassembled where
  table : Table
  payload : Option Payload
  status : Status
deriving DecidableEq, Repr

/-- R111: a frame with no data bytes changes nothing. -/
def reassembleEmpty (t : Table) : Reassembled := { table := t, payload := none, status := .emptyFrame }

/-- R116: no start bit and no buffer open; the frame is dropped. -/
def reassembleViolation (t : Table) : Reassembled := { table := t, payload := none, status := .protocolViolation }

/-- R112: the whole frame becomes the buffer, whatever buffer was there. -/
def reassembleStart (t : Table) (f : Frame) : Reassembled :=
  { table := openBuf f.id f.data t, payload := none, status := .ok }

/-- R113: the frame is the payload, and no buffer is left open. -/
def reassembleSingle (t : Table) (f : Frame) : Reassembled :=
  { table := closeBuf f.id t, payload := some f.data, status := .ok }

/-- R114: the frame's contribution is appended to the open buffer; with none open, R116. -/
def reassembleCont (t : Table) (f : Frame) : Reassembled :=
  match lookupBuf f.id t with
  | none => reassembleViolation t
  | some b => { table := openBuf f.id (b ++ contribution f) t, payload := none, status := .ok }

/-- R115: the contribution is appended and the buffer is the payload; with none open, R116. -/
def reassembleEnd (t : Table) (f : Frame) : Reassembled :=
  match lookupBuf f.id t with
  | none => reassembleViolation t
  | some b => { table := closeBuf f.id t, payload := some (b ++ contribution f), status := .ok }

/-- `REASM f`, the complete step (R110): the data length, then the start bit, then the buffer (R211). -/
def reassemble (t : Table) (f : Frame) : Reassembled :=
  match f.data with
  | [] => reassembleEmpty t
  | h :: _ =>
    if hdrStart h then (if hdrEnd h then reassembleSingle t f else reassembleStart t f)
    else if hdrEnd h then reassembleEnd t f
    else reassembleCont t f

/-- A reassembler step's table written and its event pulsed, before it reports. -/
def State.absorb (s : State) (r : Reassembled) : State :=
  { s with reasm := r.table, out := s.out ++ eventOf r.status }

/-- A reassembler step at a port: it also returns its payload and status. -/
def State.reasmReport (s : State) (r : Reassembled) : State :=
  (s.absorb r).answer r.status (r.payload.map .payload)

/-! ### The decoder -/

/-- A decoder step at a port: the reading or the reason there is none; no state element changes (R141, R142). -/
def State.decReport (s : State) (d : Option Reading × Status) : State := s.answer d.2 (d.1.map .reading)

/-! ### The poll sequencer -/

/-- The sensor of the current poll, `ROUND_ORDER[IDX]` (R150). -/
def State.polled (s : State) : Sensor := orderAt s.cfg.roundOrder s.idx

/-- `accept(r)` (R155). -/
def State.accepts (s : State) (r : Reading) : Bool :=
  match s.cfg.policy with
  | .discard => decide (kindOf r = s.polled)
  | .acceptEmbedded => true

/-- The frames the poll sequencer presents to the reassembler (R22, R153). -/
def isResponse (f : Frame) : Bool := f.ext && decide (f.id = respId)

/-- A frame offered while `RX` is not enabled waits with the host (R152, R210; log 17). -/
def State.keepFrame (s : State) (f : Frame) : State := { s with held := s.held ++ [f] }

/-- The host may offer a frame it keeps: `RX` is enabled in `C_WAIT` only (R152). -/
def State.mayOfferHeld (s : State) : Bool := decide (s.cst = .cWait ∧ s.held ≠ [])

/-- The kept frame the host offers next, with the frames it still keeps; none if it offers its next line instead. Which is
the host's free choice (R152, R220; log 17). -/
def State.heldOffer (s : State) : Option (Frame × List Frame) :=
  match Config.hostOffers s.picks with
  | none => none
  | some k =>
    match s.held[k]? with
    | none => none
    | some f => some (f, s.held.eraseIdx k)

/-- `next_poll()` (R175). -/
def State.nextPoll (s : State) : State :=
  if s.idx.val < 3 then { s with idx := s.idx + 1, cst := .cIssue } else { s with cst := .cEnd }

/-- The poll ends with a transport error and the round with it (R151, R156; decision D20). -/
def State.abortRound (s : State) : State :=
  { s with out := s.out ++ [.pollDone s.polled .transportError none], roundErr := true, cst := .cEnd,
           ret := some { status := .transportError, value := none } }

/-- The poll ends with a reading (R153). -/
def State.pollSucceeds (s : State) (r : Reading) : State :=
  { s with pend := some r, out := s.out ++ [.pollDone s.polled .ok (some r)], cst := .cPub,
           ret := some { status := .ok, value := some (.reading r) } }

/-- A completed payload during a poll: decoded, then accepted or absorbed (R153, R155, R209). -/
def State.takePayload (s : State) (p : Payload) : State :=
  match dec s.cfg p with
  | (none, st) => s.answer st none
  | (some r, _) =>
    if s.accepts r then s.pollSucceeds r
    else (s.emit (eventOf .kindMismatch)).answer .kindMismatch none

/-- A response frame during a poll (R153): reassembled, and its payload taken if it completes one. -/
def State.takeFrame (s : State) (f : Frame) : State :=
  let r := reassemble s.reasm f
  match r.payload with
  | none => (s.absorb r).answer r.status none
  | some p => (s.absorb r).takePayload p

/-! ### The shared record -/

/-- The atomic part of `PUB` (R174): one field group, the success count and the timestamp, in one step. -/
def Dash.publish (d : Dash) (r : Reading) (t : Nat) : Dash :=
  { setGroup d (kindOf r) r with succ := d.succ + 1, last := some (BitVec.ofNat 64 t) }

/-- The atomic part of `END` (R176). -/
def Dash.countError (d : Dash) : Dash := { d with err := d.err + 1 }

/-- `DASH` after a round's end (R176). -/
def State.roundEndDash (s : State) : Dash :=
  if s.roundErr || !s.roundOk then s.dash.countError else s.dash

end Sys2Proof.Machine
end

