-- ==== Sys2Proof/Machine/Collector.lean ====
section
/-! DEFINITION. Machine/Collector.lean: the meanings of the collector's round steps (44_shared_state.md section 1). A step that is
not enabled does nothing (R212; log 3). -/

namespace Sys2Proof.Machine

/-- `STEP.TOP` (R171): `RUN` is read here and nowhere else by the collector. -/
def execStepTop (s : State) : Host.Outcome State Fault Refusal :=
  if s.cst = .cTop then
    if s.run then
      .next ({ s with idx := 0, roundOk := false, roundErr := false, pend := none, cst := .cIssue }.answer .ok none)
    else .next ({ s with cst := .cExit }.answer .ok none)
  else .next s

/-- `STEP.PUB` (R174), enabled with a reading pending (log 13): the atomic publish, then `next_poll()`. -/
def execStepPub (t : Nat) (s : State) : Host.Outcome State Fault Refusal :=
  match s.cst, s.pend with
  | .cPub, some r =>
    .next (({ s with dash := s.dash.publish r t, roundOk := true, pend := none }.answer .ok none).nextPoll)
  | _, _ => .next s

/-- `STEP.END` (R176). -/
def execStepEnd (s : State) : Host.Outcome State Fault Refusal :=
  if s.cst = .cEnd then .next ({ s with dash := s.roundEndDash, cst := .cTop }.answer .ok none) else .next s

end Sys2Proof.Machine
end

