-- ==== Sys2Proof/Machine/Decoder.lean ====
section
/-! DEFINITION. Machine/Decoder.lean: the meanings of the DEC rows at the stand-alone port `DEC_IN` (42_decoder.md).
No state element of 10_state.md is read or written (R130, R141, R142); the reading is returned to the port. -/

namespace Sys2Proof.Machine

/-- `DEC.SHORT` (R131). -/
def execDecShort (_p : Payload) (s : State) : Host.Outcome State Fault Refusal :=
  .next (s.decReport (none, .decodeTooShort))

/-- `DEC.PUMP` (R133). -/
def execDecPump (p : Payload) (s : State) : Host.Outcome State Fault Refusal :=
  .next (s.decReport (parsePump p.length (byteAt p)))

/-- `DEC.PRES` (R134). -/
def execDecPres (p : Payload) (s : State) : Host.Outcome State Fault Refusal :=
  .next (s.decReport (parsePres p.length (byteAt p)))

/-- `DEC.TEMP` (R135). -/
def execDecTemp (p : Payload) (s : State) : Host.Outcome State Fault Refusal :=
  .next (s.decReport (parseTemp p.length (byteAt p)))

/-- `DEC.WHEEL` (R136). -/
def execDecWheel (p : Payload) (s : State) : Host.Outcome State Fault Refusal :=
  .next (s.decReport (parseWheel p.length (byteAt p)))

/-- `DEC.UNKNOWN` (R132). -/
def execDecUnknown (_p : Payload) (s : State) : Host.Outcome State Fault Refusal :=
  .next (s.decReport (none, .unknownOperation))

end Sys2Proof.Machine
end

