-- ==== Sys2Proof/Machine/Encoder.lean ====
section
/-! DEFINITION. Machine/Encoder.lean: the meanings of the ENC rows at the stand-alone port `ENC_IN` (40_encoder.md).
No state element of 10_state.md is written (R102); the frame is returned to the port. -/

namespace Sys2Proof.Machine

/-- `ENC.PUMP`: `ENC 0` (R100). -/
def execEncPump (s : State) : Host.Outcome State Fault Refusal :=
  .next (s.encodeRequest 0#3)

/-- `ENC.PRES`: `ENC 1` (R100). -/
def execEncPres (s : State) : Host.Outcome State Fault Refusal :=
  .next (s.encodeRequest 1#3)

/-- `ENC.TEMP`: `ENC 2` (R100). -/
def execEncTemp (s : State) : Host.Outcome State Fault Refusal :=
  .next (s.encodeRequest 2#3)

/-- `ENC.WHEEL`: `ENC 3` (R100). -/
def execEncWheel (s : State) : Host.Outcome State Fault Refusal :=
  .next (s.encodeRequest 3#3)

/-- `ENC.UNKNOWN`: no frame, no side effect, status `UnknownSensor` (R101). -/
def execEncUnknown (_sel : Sel) (s : State) : Host.Outcome State Fault Refusal :=
  .next (s.answer .unknownSensor none)

end Sys2Proof.Machine
end

