-- ==== Sys2Proof/Machine/HostSteps.lean ====
section
/-! DEFINITION. Machine/HostSteps.lean: the meanings of the host's steps (70_reset_and_hazards.md sections 2 and 3;
44_shared_state.md section 3). A step that is not enabled does nothing (R212; log 3). -/

namespace Sys2Proof.Machine

/-- `STEP.START`, `CONNECT_RESULT(true)` (R236). -/
def execStepStart (s : State) : Host.Outcome State Fault Refusal :=
  if s.conn = .connNone ∧ s.exit = none then
    .next ({ s with conn := .connUp, run := true, cst := .cTop, rst := .rTop }.answer .ok none)
  else .next s

/-- `STEP.CONNFAIL`, `CONNECT_RESULT(false)` (R237). The step itself ends with status `OK`: "A connect failure is not a
status of any operation" (R205; log 6). -/
def execStepConnfail (s : State) : Host.Outcome State Fault Refusal :=
  if s.conn = .connNone ∧ s.exit = none then
    .next (({ s with exit := some .exitFail }.emit [.exitOut .exitFail]).answer .ok none)
  else .next s

/-- `STEP.STOP` (R184). -/
def execStepStop (s : State) : Host.Outcome State Fault Refusal :=
  if s.conn = .connUp then .next ({ s with run := false }.answer .ok none) else .next s

/-- `STEP.SHUTDOWN`, answered by `DISCONNECT_DONE` (R238). -/
def execStepShutdown (s : State) : Host.Outcome State Fault Refusal :=
  if s.cst = .cExit ∧ s.rst = .rExit ∧ s.conn = .connUp then
    .next (({ s with conn := .connDown, exit := some .exitOk }.emit [.disconnect, .exitOut .exitOk]).answer .ok none)
  else .next s

end Sys2Proof.Machine
end

