-- ==== Sys2Proof/Machine/Poll.lean ====
section
/-! DEFINITION. Machine/Poll.lean: the meanings of the poll sequencer's steps (43_poll_engine.md). A step that is not enabled
does nothing (R212; log 3). -/

namespace Sys2Proof.Machine

/-- `STEP.ISSUE` (R151): the request is sent; a failed send ends the poll and the round. While a poll is outstanding it is a
second poll, refused by the fault mark alone (R157; log 4). Elsewhere it is not enabled (R212). -/
def execStepIssue (ok : Bool) (s : State) : Host.Outcome State Fault Refusal :=
  match s.cst with
  | .cIssue =>
    let t := s.emit [.tx (requestFrame s.polled)]
    if ok then .next ({ t with cst := .cWait }.answer .ok none) else .next t.abortRound
  | .cWait => .next { s with fault := some .pollBusy }
  | _ => .next s

/-- `STEP.RX` (R153): a frame on another identifier is ignored. Enabled while a poll waits (R152); offered at any other
time, the frame waits with the host (R210; log 17). -/
def execStepRx (f : Frame) (s : State) : Host.Outcome State Fault Refusal :=
  if s.cst = .cWait then
    if isResponse f then .next (s.takeFrame f) else .next (s.answer .ok none)
  else .next (s.keepFrame f)

/-- `STEP.TMO` (R154). -/
def execStepTmo (s : State) : Host.Outcome State Fault Refusal :=
  if s.cst = .cWait then .next (((s.emit [.pollDone s.polled .timeout none]).answer .timeout none).nextPoll) else .next s

/-- `STEP.RXERR` (R156). -/
def execStepRxerr (s : State) : Host.Outcome State Fault Refusal :=
  if s.cst = .cWait then .next s.abortRound else .next s

end Sys2Proof.Machine
end

