-- ==== Sys2Proof/Machine/Reassembler.lean ====
section
/-! DEFINITION. Machine/Reassembler.lean: the meanings of the REASM rows at the stand-alone port `REASM_IN`
(41_reassembler.md), on the one reassembly table of the block (log 5). -/

namespace Sys2Proof.Machine

/-- `REASM.EMPTY` (R111). -/
def execReasmEmpty (_f : Frame) (s : State) : Host.Outcome State Fault Refusal :=
  .next (s.reasmReport (reassembleEmpty s.reasm))

/-- `REASM.SINGLE` (R113). -/
def execReasmSingle (f : Frame) (s : State) : Host.Outcome State Fault Refusal :=
  .next (s.reasmReport (reassembleSingle s.reasm f))

/-- `REASM.START` (R112). -/
def execReasmStart (f : Frame) (s : State) : Host.Outcome State Fault Refusal :=
  .next (s.reasmReport (reassembleStart s.reasm f))

/-- `REASM.CONT` (R114); with no buffer open for the key the frame is a violation (R116; log 8). -/
def execReasmCont (f : Frame) (s : State) : Host.Outcome State Fault Refusal :=
  .next (s.reasmReport (reassembleCont s.reasm f))

/-- `REASM.END` (R115); with no buffer open for the key the frame is a violation (R116; log 8). -/
def execReasmEnd (f : Frame) (s : State) : Host.Outcome State Fault Refusal :=
  .next (s.reasmReport (reassembleEnd s.reasm f))

/-- `REASM.VIOLATION` (R116). The row is selected only where no buffer is open for the key; elsewhere the frame is what
R110 makes of it (log 8). -/
def execReasmViolation (f : Frame) (s : State) : Host.Outcome State Fault Refusal :=
  match lookupBuf f.id s.reasm with
  | none => .next (s.reasmReport (reassembleViolation s.reasm))
  | some _ => .next (s.reasmReport (reassemble s.reasm f))

end Sys2Proof.Machine
end

