-- ==== Sys2Proof/Machine/Renderer.lean ====
section
/-! DEFINITION. Machine/Renderer.lean: the meaning of the renderer's one step (44_shared_state.md section 2). Not enabled, it does
nothing (R212; log 3). -/

namespace Sys2Proof.Machine

/-- `STEP.SNAP` (R180): the record is copied whole in one step; with `RUN` false the loop is left. -/
def execStepSnap (s : State) : Host.Outcome State Fault Refusal :=
  if s.rst = .rTop then
    if s.run then
      .next (({ s with snap := some s.dash, rst := .rTop }.emit [.snapOut s.dash]).answer .ok none)
    else .next ({ s with rst := .rExit }.answer .ok none)
  else .next s

end Sys2Proof.Machine
end

