-- ==== Sys2Proof/Machine/StandAlone.lean ====
section
/-! DEFINITION. Machine/StandAlone.lean: the meanings of the trace lines `ENC`, `REASM` and `DEC`, the stand-alone operations
(30_encoding.md R87), available in every state (log 5). -/

namespace Sys2Proof.Machine

/-- `STEP.ENC`: `ENC sel` (R100, R101). -/
def execStepEnc (sel : Sel) (s : State) : Host.Outcome State Fault Refusal :=
  .next (s.encodeRequest sel)

/-- `STEP.REASM`: `REASM f` (R110). -/
def execStepReasm (f : Frame) (s : State) : Host.Outcome State Fault Refusal :=
  .next (s.reasmReport (reassemble s.reasm f))

/-- `STEP.DEC`: `DEC p` (R130). -/
def execStepDec (p : Payload) (s : State) : Host.Outcome State Fault Refusal :=
  .next (s.decReport (dec s.cfg p))

end Sys2Proof.Machine
end

