-- ==== Sys2Proof/Machine/Dispatch.lean ====
section
/-! DEFINITION. Machine/Dispatch.lean: one arm per instruction, each one direct call of its meaning. -/

namespace Sys2Proof.Machine

def exec (i : Instr) (s : State) : Host.Outcome State Fault Refusal :=
  match i with
  | .encPump => Sys2Proof.Machine.execEncPump s
  | .encPres => Sys2Proof.Machine.execEncPres s
  | .encTemp => Sys2Proof.Machine.execEncTemp s
  | .encWheel => Sys2Proof.Machine.execEncWheel s
  | .encUnknown sel => Sys2Proof.Machine.execEncUnknown sel s
  | .reasmEmpty f => Sys2Proof.Machine.execReasmEmpty f s
  | .reasmSingle f => Sys2Proof.Machine.execReasmSingle f s
  | .reasmStart f => Sys2Proof.Machine.execReasmStart f s
  | .reasmCont f => Sys2Proof.Machine.execReasmCont f s
  | .reasmEnd f => Sys2Proof.Machine.execReasmEnd f s
  | .reasmViolation f => Sys2Proof.Machine.execReasmViolation f s
  | .decShort p => Sys2Proof.Machine.execDecShort p s
  | .decPump p => Sys2Proof.Machine.execDecPump p s
  | .decPres p => Sys2Proof.Machine.execDecPres p s
  | .decTemp p => Sys2Proof.Machine.execDecTemp p s
  | .decWheel p => Sys2Proof.Machine.execDecWheel p s
  | .decUnknown p => Sys2Proof.Machine.execDecUnknown p s
  | .stepStart => Sys2Proof.Machine.execStepStart s
  | .stepConnfail => Sys2Proof.Machine.execStepConnfail s
  | .stepTop => Sys2Proof.Machine.execStepTop s
  | .stepIssue ok => Sys2Proof.Machine.execStepIssue ok s
  | .stepRx f => Sys2Proof.Machine.execStepRx f s
  | .stepTmo => Sys2Proof.Machine.execStepTmo s
  | .stepRxerr => Sys2Proof.Machine.execStepRxerr s
  | .stepPub t => Sys2Proof.Machine.execStepPub t s
  | .stepEnd => Sys2Proof.Machine.execStepEnd s
  | .stepSnap => Sys2Proof.Machine.execStepSnap s
  | .stepStop => Sys2Proof.Machine.execStepStop s
  | .stepShutdown => Sys2Proof.Machine.execStepShutdown s
  | .stepEnc sel => Sys2Proof.Machine.execStepEnc sel s
  | .stepReasm f => Sys2Proof.Machine.execStepReasm f s
  | .stepDec p => Sys2Proof.Machine.execStepDec p s

end Sys2Proof.Machine
end

