-- ==== Sys2Proof/Machine/Fetch.lean ====
section
/-! DEFINITION. Machine/Fetch.lean: taking the next line of the trace: it is consumed, decoded and run. -/

namespace Sys2Proof.Machine

/-- The next line of the trace, decoded under the state's configuration and reassembly table, and run (log 1). -/
def takeLine (s : State) : Host.Outcome State Fault Refusal :=
  match s.trace with
  | [] => .fault .hostSilent
  | o :: rest =>
    match decode s.cfg s.reasm o with
    | .error r => .refused (.undecodable r)
    | .ok i => exec i { s with trace := rest }

/-- A kept frame the host offers, taken by `RX` (R152, R153; log 17). -/
def takeHeld (f : Frame) (rest : List Frame) (s : State) : Host.Outcome State Fault Refusal :=
  exec (.stepRx f) { s with held := rest }

end Sys2Proof.Machine
end

