-- ==== Sys2Proof/Machine/Step.lean ====
section
/-! DEFINITION. Machine/Step.lean: one step takes the host's next offer and runs it: the next line of the trace, or, while a
poll waits, a frame the host has kept. The block has no program counter and fetches no instruction (R26, R245); the trace
stands for the host's offers in the order the block takes them (log 1). -/

namespace Sys2Proof.Machine

/-- One step. While a poll waits and the host keeps frames, it is the host's choice whether it offers one of them or its
next line (log 17). -/
def step (s : State) : Host.Outcome State Fault Refusal :=
  if s.mayOfferHeld then
    match s.heldOffer with
    | some (f, rest) => takeHeld f rest { s with picks := s.picks + 1 }
    | none => takeLine { s with picks := s.picks + 1 }
  else takeLine s

/-- The word of an opcode-table row put where `step` takes its next offer, with the buffer open that its row needs
(log 1, log 9), and, while a poll waits, no frame kept by the host that it could offer instead (log 17); a word of no row
leaves the state as it is. -/
def State.withFetchWord (s : State) (nbits w : Nat) : State :=
  match offerOfTableWord nbits w with
  | none => s
  | some o =>
    { s with
      reasm := tableForWord nbits w s.reasm, trace := o :: s.trace
      held := if s.mayOfferHeld then [] else s.held }

end Sys2Proof.Machine
end

