-- ==== Sys2Proof/Machine/Stored.lean ====
section
/-! DEFINITION. Machine/Stored.lean: the bounded realisation of a payload that R119 describes beside the model's
unbounded one: a prefix of `MAX_PAYLOAD` bytes and a length counter that saturates at its maximum (R12, decision
D10). No step uses it. -/

namespace Sys2Proof.Machine

/-- A payload as a realisation stores it. -/
structure StoredPayload where
  kept : List Byte
  length : Nat
deriving DecidableEq, Repr

/-- Storing a payload with room for `room` bytes and a counter whose maximum is `top` (R119). -/
def storePayload (room top : Nat) (p : Payload) : StoredPayload :=
  { kept := p.take room, length := min p.length top }

/-- `DEC` on a stored payload (R119). -/
def decStored (cfg : Config) (p : StoredPayload) : Option Reading × Status := decView cfg p.length (byteAt p.kept)

end Sys2Proof.Machine
end

