-- ==== Sys2Proof/Machine/Trace.lean ====
section
/-! DEFINITION. Machine/Trace.lean: runs of the block as traces (30_encoding.md section 6): the agent
of each step, a trace line's text (R87), the pseudo-steps (R88), and running a list of steps. -/

namespace Sys2Proof.Machine

/-- The agent of a step (R87, R216); the stand-alone operations belong to none. -/
def agentOf : Instr → Agent
  | .stepTop => .collector
  | .stepIssue _ => .collector
  | .stepRx _ => .collector
  | .stepTmo => .collector
  | .stepRxerr => .collector
  | .stepPub _ => .collector
  | .stepEnd => .collector
  | .stepSnap => .renderer
  | .stepStart => .host
  | .stepConnfail => .host
  | .stepStop => .host
  | .stepShutdown => .host
  | .encPump => .standAlone
  | .encPres => .standAlone
  | .encTemp => .standAlone
  | .encWheel => .standAlone
  | .encUnknown _ => .standAlone
  | .reasmEmpty _ => .standAlone
  | .reasmSingle _ => .standAlone
  | .reasmStart _ => .standAlone
  | .reasmCont _ => .standAlone
  | .reasmEnd _ => .standAlone
  | .reasmViolation _ => .standAlone
  | .decShort _ => .standAlone
  | .decPump _ => .standAlone
  | .decPres _ => .standAlone
  | .decTemp _ => .standAlone
  | .decWheel _ => .standAlone
  | .decUnknown _ => .standAlone
  | .stepEnc _ => .standAlone
  | .stepReasm _ => .standAlone
  | .stepDec _ => .standAlone

/-- The frame an instruction presents to the reassembler whenever it is performed, if it presents one. -/
def presented : Instr → Option Frame
  | .reasmEmpty f => some f
  | .reasmSingle f => some f
  | .reasmStart f => some f
  | .reasmCont f => some f
  | .reasmEnd f => some f
  | .reasmViolation f => some f
  | .stepReasm f => some f
  | .stepRx f => some f
  | _ => none

/-- The frame a step offers to a poll, if it offers one. -/
def offeredFrame : Instr → Option Frame
  | .stepRx f => some f
  | _ => none

/-- Running steps one after another, stopping at the first fault or refusal. -/
def execAll : List Instr → State → Host.Outcome State Fault Refusal
  | [], s => .next s
  | i :: is, s =>
    match exec i s with
    | .next t => execAll is t
    | .fault r => .fault r
    | .refused r => .refused r

/-! ### Pseudo-steps (R88) -/

/-- How a poll of a trace ends: a last frame, a timeout or a receive failure. -/
inductive PollEnd where
  | rx (f : Frame)
  | tmo
  | rxerr
deriving DecidableEq, Repr

/-- The step that ends a poll. -/
def PollEnd.toInstr : PollEnd → Instr
  | .rx f => .stepRx f
  | .tmo => .stepTmo
  | .rxerr => .stepRxerr

/-- `POLL s`: `ISSUE ok`, any number of `RX` steps, and one terminating step. -/
def pollSteps (frames : List Frame) (last : PollEnd) : List Instr :=
  .stepIssue true :: (frames.map .stepRx ++ [last.toInstr])

/-- `ROUND`: `TOP`, four `POLL`s each with its `PUB` if it has one, and `END`. -/
def roundSteps (polls : List (List Frame × PollEnd × Option Nat)) : List Instr :=
  .stepTop :: (polls.flatMap (fun p => pollSteps p.1 p.2.1 ++ (p.2.2.map Instr.stepPub).toList) ++ [.stepEnd])

/-! ### The text of a trace line (R87) -/

/-- An upper-case hexadecimal digit. -/
def hexDigit (n : Nat) : Char := if n < 10 then Char.ofNat (48 + n) else Char.ofNat (55 + n)

/-- The hexadecimal digits of a number, most significant first, no more than `fuel` of them; none for 0. -/
def hexDigits : Nat → Nat → List Char
  | 0, _ => []
  | fuel + 1, n => if n = 0 then [] else hexDigits fuel (n / 16) ++ [hexDigit (n % 16)]

/-- A number in hexadecimal without `0x`. -/
def hexNat (n : Nat) : List Char := if n = 0 then ['0'] else hexDigits n n

/-- A byte as two hexadecimal digits. -/
def hexByte (b : Byte) : List Char := [hexDigit (b.toNat / 16), hexDigit (b.toNat % 16)]

/-- Data bytes, each after a space; a frame's empty data list as ` -` (R87). DESIGN CHOICE: R87 does not say how an empty
payload of `DEC` is written, and here it is ` -` as well (log 18). -/
def hexData (bs : List Byte) : List Char :=
  match bs with
  | [] => [' ', '-']
  | _ :: _ => bs.flatMap (fun b => ' ' :: hexByte b)

/-- A frame: the identifier's 8 digits and the data bytes (R87 writes no mark for `ext`). -/
def hexFrame (f : Frame) : List Char :=
  ' ' :: hexByte (BitVec.ofNat 8 (f.id.toNat / 2 ^ 24)) ++ hexByte (BitVec.ofNat 8 (f.id.toNat / 2 ^ 16 % 256))
    ++ hexByte (BitVec.ofNat 8 (f.id.toNat / 2 ^ 8 % 256)) ++ hexByte (BitVec.ofNat 8 (f.id.toNat % 256)) ++ hexData f.data

/-- The agent's letter and colon; a stand-alone operation has none. -/
def agentText : Agent → List Char
  | .collector => ['C', ':', ' ']
  | .renderer => ['R', ':', ' ']
  | .host => ['H', ':', ' ']
  | .standAlone => []

/-- The mnemonic and operands of a step, with the host's input after the mnemonic. The rows at the stand-alone ports
are written as the operation they are a case of. -/
def stepText : Instr → List Char
  | .encPump => "ENC 0".toList
  | .encPres => "ENC 1".toList
  | .encTemp => "ENC 2".toList
  | .encWheel => "ENC 3".toList
  | .encUnknown sel => "ENC ".toList ++ hexNat sel.toNat
  | .reasmEmpty f => "REASM".toList ++ hexFrame f
  | .reasmSingle f => "REASM".toList ++ hexFrame f
  | .reasmStart f => "REASM".toList ++ hexFrame f
  | .reasmCont f => "REASM".toList ++ hexFrame f
  | .reasmEnd f => "REASM".toList ++ hexFrame f
  | .reasmViolation f => "REASM".toList ++ hexFrame f
  | .decShort p => "DEC".toList ++ hexData p
  | .decPump p => "DEC".toList ++ hexData p
  | .decPres p => "DEC".toList ++ hexData p
  | .decTemp p => "DEC".toList ++ hexData p
  | .decWheel p => "DEC".toList ++ hexData p
  | .decUnknown p => "DEC".toList ++ hexData p
  | .stepStart => "START".toList
  | .stepConnfail => "CONNFAIL".toList
  | .stepTop => "TOP".toList
  | .stepIssue true => "ISSUE ok".toList
  | .stepIssue false => "ISSUE fail".toList
  | .stepRx f => "RX".toList ++ hexFrame f
  | .stepTmo => "TMO".toList
  | .stepRxerr => "RXERR".toList
  | .stepPub t => "PUB ".toList ++ hexNat t
  | .stepEnd => "END".toList
  | .stepSnap => "SNAP".toList
  | .stepStop => "STOP".toList
  | .stepShutdown => "SHUTDOWN".toList
  | .stepEnc sel => "ENC ".toList ++ hexNat sel.toNat
  | .stepReasm f => "REASM".toList ++ hexFrame f
  | .stepDec p => "DEC".toList ++ hexData p

/-- A trace line: `<agent>: <MNEMONIC> <operands>`. -/
def lineText (i : Instr) : List Char := agentText (agentOf i) ++ stepText i

end Sys2Proof.Machine
end

