-- ==== Sys2Proof/Safety.lean ====
section
/-! DEFINITION. Safety.lean: the end of a run (70_reset_and_hazards.md R239)
and the invariants of the block: what each state element may hold together with the others. -/

namespace Sys2Proof.Machine

/-! ### The end of a run (R239) -/

/-- A run has ended. -/
def State.ended (s : State) : Bool := s.exit.isSome && s.fault.isNone

/-- A run has ended cleanly. -/
def State.endedCleanly (s : State) : Bool := decide (s.exit = some .exitOk) && s.fault.isNone

/-! ### The record -/

/-- A field group holds only readings of its own kind, in range (R23, R31). -/
def groupOk (d : Dash) (k : Sensor) : Prop := ∀ r, groupOf d k = some r → kindOf r = k ∧ readingInRange r = true

/-- The record's field groups hold their own kinds in range, and a record with no timestamp has had no update (R31,
R32, R174). -/
structure DashOk (d : Dash) : Prop where
  groups : ∀ k, groupOk d k
  unstamped : d.last = none → ∀ k, groupOf d k = none

/-! ### The reassembly table -/

/-- An open buffer begins with a start frame's header byte, whose end bit is 0 (R112 to R115). -/
def bufferOk (b : List Byte) : Prop := ∃ h tl, b = h :: tl ∧ hdrStart h = true ∧ hdrEnd h = false

/-- The table is in its canonical form and every open buffer was opened by a start frame. -/
structure TableOk (t : Table) : Prop where
  rising : Table.wf t
  opened : ∀ k b, lookupBuf k t = some b → bufferOk b

/-! ### The two loops and the transport -/

/-- The loops run exactly while the transport is connected, and a loop that is left found `RUN` false (R35, R171,
R180, R231, R234, R236 to R239). -/
structure ControlOk (s : State) : Prop where
  /-- before the connect nothing has started -/
  notStarted : s.conn = .connNone →
    s.cst = .cInit ∧ s.rst = .rInit ∧ s.run = false ∧ (s.exit = none ∨ s.exit = some .exitFail)
  /-- while connected both loops have started and no exit status is decided -/
  started : s.conn = .connUp → s.cst ≠ .cInit ∧ s.rst ≠ .rInit ∧ s.exit = none
  /-- after the release both loops are left and the exit status is 0 -/
  released : s.conn = .connDown → s.cst = .cExit ∧ s.rst = .rExit ∧ s.run = false ∧ s.exit = some .exitOk
  /-- the collector leaves its loop only with `RUN` false -/
  collectorLeft : s.cst = .cExit → s.run = false
  /-- the renderer leaves its loop only with `RUN` false -/
  rendererLeft : s.rst = .rExit → s.run = false

/-- The collector's private state (R29, R30): a reading is pending exactly in `C_PUB`; under `DISCARD` it is of the
polled sensor's kind (R155); a round with a transport error is over (R151, R156). -/
structure CollectorOk (s : State) : Prop where
  pending : s.pend.isSome = true ↔ s.cst = .cPub
  pendingOk : ∀ r, s.pend = some r → readingInRange r = true ∧ (s.cfg.policy = .discard → kindOf r = s.polled)
  errorEndsRound : s.roundErr = true → s.cst = .cEnd ∨ s.cst = .cTop ∨ s.cst = .cExit

/-- The invariant of the block. -/
structure Inv (s : State) : Prop where
  config : s.cfg.wf = true
  table : TableOk s.reasm
  dash : DashOk s.dash
  snapshot : ∀ x, s.snap = some x → DashOk x
  control : ControlOk s
  collector : CollectorOk s
  /-- a kept frame is a frame (R22) -/
  kept : ∀ f ∈ s.held, f.wf = true

/-! ### What the outputs say -/

/-- A request frame was sent. -/
def isTx : Output → Bool
  | .tx _ => true
  | _ => false

/-- A poll ended. -/
def isPollDone : Output → Bool
  | .pollDone _ _ _ => true
  | _ => false

/-- A poll ended with a reading. -/
def isPollOk : Output → Bool
  | .pollDone _ .ok _ => true
  | _ => false

/-- "This is strictly one outstanding request at a time" (R150): every request sent has had its one `POLL_DONE`, but
for the one that is outstanding in `C_WAIT`. -/
def PollBalance (s : State) : Prop :=
  s.out.countP isTx = s.out.countP isPollDone + (if s.cst = .cWait then 1 else 0)

/-- The success counter counts the published readings (R174): the polls that ended with a reading, but for one not yet
published, modulo `2^CNT_W`. -/
def SuccessCount (s : State) : Prop :=
  s.dash.succ + (if s.cst = .cPub then 1 else 0) = BitVec.ofNat 32 (s.out.countP isPollOk)

/-- A reading was the result of a poll among these outputs. -/
def wasRead (os : List Output) (r : Reading) : Prop := ∃ p, Output.pollDone p .ok (some r) ∈ os

/-- Every field group of a record holds a reading some poll among these outputs ended with. -/
def dashWasRead (os : List Output) (d : Dash) : Prop := ∀ k r, groupOf d k = some r → wasRead os r

/-- Where every reading comes from (R182; 95_test_vectors.md W11): the record, the pending reading and the snapshot
hold only readings that polls ended with, and every snapshot presented holds only readings of polls that ended before
it. -/
structure Provenance (s : State) : Prop where
  record : dashWasRead s.out s.dash
  pending : ∀ r, s.pend = some r → wasRead s.out r
  copy : ∀ x, s.snap = some x → dashWasRead s.out x
  presented : ∀ before x rest, s.out = before ++ Output.snapOut x :: rest → dashWasRead before x

end Sys2Proof.Machine
end

