-- ==== Sys2Proof/Certificates/Slice0/Obligations.lean ====
section
/-! DEFINITION. Certificates/Slice0/Obligations.lean: the statements for the provers. In them `s` is any state, and an
equation `exec i s = .next t` gives the whole next state, so what `t` does not change is unchanged. `ret` is the model's
own report register (log 6), `out` its record of the outputs (log 7), `held` the frames the host keeps (log 17). -/

open Sys2Proof Sys2Proof.Machine

/-! ### The encoder -/

/-- R100: the four ENC rows and `STEP.ENC` on select codes 0 to 3 return the frames of the rule, with status `OK`, and
write no state. (`ret` is the model's own report register, log 6; the select codes of `STEP.ENC` are decision D2.) -/
def Obligations.EncBuildsTheFourRequestFrames : Prop :=
  ∀ s : State,
    let sent (b : Byte) : Frame :=
      { ext := true, id := 0x000FFFFE#29, data := [0xCD#8, 0x1A#8, 0xA6#8, 0x00#8, b, 0x01#8, 0x01#8, 0x00#8] }
    let answers (b : Byte) : State := { s with ret := some { status := .ok, value := some (.frame (sent b)) } }
    exec .encPump s = .next (answers 0x05#8) ∧ exec (.stepEnc 0#3) s = .next (answers 0x05#8) ∧
    exec .encPres s = .next (answers 0x03#8) ∧ exec (.stepEnc 1#3) s = .next (answers 0x03#8) ∧
    exec .encTemp s = .next (answers 0x02#8) ∧ exec (.stepEnc 2#3) s = .next (answers 0x02#8) ∧
    exec .encWheel s = .next (answers 0x06#8) ∧ exec (.stepEnc 3#3) s = .next (answers 0x06#8)

/-- R101 (select codes are decision D2, the spec's own choice): a code that names no sensor gives status
`UnknownSensor`, no frame, no output and no other change. -/
def Obligations.UnknownSelectCodeBuildsNoFrame : Prop :=
  ∀ (s : State) (sel : Sel), 4 ≤ sel.toNat →
    exec (.encUnknown sel) s = .next { s with ret := some { status := .unknownSensor, value := none } } ∧
    exec (.stepEnc sel) s = .next { s with ret := some { status := .unknownSensor, value := none } }

/-- R7, R70, R71: the templates, and the format of the request frame of every sensor, field by field: extended, on
`REQ_ID`, exactly 8 data bytes, length prefix, module identifier, template, response count, zero padding. (`selOf` names
the sensors by the select codes of decision D2.) -/
def Obligations.RequestFrameFormat : Prop :=
  (template .pumpCurrent = [0xA6#8, 0x00#8, 0x05#8, 0x01#8] ∧ template .oilPressure = [0xA6#8, 0x00#8, 0x03#8, 0x01#8] ∧
    template .oilTemperature = [0xA6#8, 0x00#8, 0x02#8, 0x01#8] ∧ template .wheelSpeeds = [0xA6#8, 0x00#8, 0x06#8, 0x01#8]) ∧
  ∀ (s : State) (k : Sensor), ∃ f : Frame,
    exec (.stepEnc (selOf k)) s = .next { s with ret := some { status := .ok, value := some (.frame f) } } ∧
    f.ext = true ∧ f.id = 0x000FFFFE#29 ∧ f.data.length = 8 ∧
    f.data[0]? = some (BitVec.ofNat 8 ((0xC8 + (template k).length + 1) % 256)) ∧
    0xC8 + (template k).length + 1 = 0xCD ∧ (template k).length = 4 ∧
    f.data[1]? = some 0x1A#8 ∧
    (f.data.drop 2).take (template k).length = template k ∧
    f.data[2 + (template k).length]? = some 0x01#8 ∧
    ∀ j, 3 + (template k).length ≤ j → j ≤ 7 → f.data[j]? = some 0x00#8

/-! ### The reassembler -/

/-- R111 (decision D8, the spec's own choice): a frame with no data bytes changes no buffer, returns nothing and is
reported as `EmptyFrame` on `EVT`. -/
def Obligations.EmptyFrameIsReportedAndDropped : Prop :=
  ∀ (s : State) (f : Frame), f.data = [] →
    let t : State := { s with out := s.out ++ [.evt .emptyFrame], ret := some { status := .emptyFrame, value := none } }
    exec (.reasmEmpty f) s = .next t ∧ exec (.stepReasm f) s = .next t

/-- R112: a start frame (S = 1, E = 0) makes the whole frame's bytes the buffer of its key, whatever buffer was open
and whatever `LEN` and bits 5:4 hold; no payload, no event, status `OK`; nothing else changes. -/
def Obligations.StartFrameOpensItsBuffer : Prop :=
  ∀ (s : State) (f : Frame) (h : Byte) (tl : List Byte), f.data = h :: tl → h.getLsbD 7 = true → h.getLsbD 6 = false →
    ∃ tbl : Table,
      lookupBuf f.id tbl = some (h :: tl) ∧ (∀ k, k ≠ f.id → lookupBuf k tbl = lookupBuf k s.reasm) ∧
      exec (.reasmStart f) s = .next { s with reasm := tbl, ret := some { status := .ok, value := none } } ∧
      exec (.stepReasm f) s = .next { s with reasm := tbl, ret := some { status := .ok, value := none } }

/-- R113: a single-frame response (S = 1, E = 1) returns the frame's data unchanged, leaves no buffer for its key, and
changes nothing else; status `OK`. -/
def Obligations.SingleFrameIsItsOwnPayload : Prop :=
  ∀ (s : State) (f : Frame) (h : Byte) (tl : List Byte), f.data = h :: tl → h.getLsbD 7 = true → h.getLsbD 6 = true →
    ∃ tbl : Table,
      lookupBuf f.id tbl = none ∧ (∀ k, k ≠ f.id → lookupBuf k tbl = lookupBuf k s.reasm) ∧
      exec (.reasmSingle f) s =
        .next { s with reasm := tbl, ret := some { status := .ok, value := some (.payload (h :: tl)) } } ∧
      exec (.stepReasm f) s =
        .next { s with reasm := tbl, ret := some { status := .ok, value := some (.payload (h :: tl)) } }

/-- R114 (the clipping of `LEN` to the frame is decision D7, the spec's own choice): a pure continuation with a buffer
open appends the bytes its nibble names, as far as the frame has them; no payload, no event; nothing else changes. -/
def Obligations.ContinuationAppendsItsDeclaredBytes : Prop :=
  ∀ (s : State) (f : Frame) (h : Byte) (tl b : List Byte), f.data = h :: tl → h.getLsbD 7 = false →
    h.getLsbD 6 = false → lookupBuf f.id s.reasm = some b →
    ∃ tbl : Table,
      lookupBuf f.id tbl = some (b ++ tl.take (h.toNat % 16)) ∧
      (∀ k, k ≠ f.id → lookupBuf k tbl = lookupBuf k s.reasm) ∧
      exec (.reasmCont f) s = .next { s with reasm := tbl, ret := some { status := .ok, value := none } } ∧
      exec (.stepReasm f) s = .next { s with reasm := tbl, ret := some { status := .ok, value := none } }

/-- R115: an end frame with a buffer open appends like a continuation and returns the buffer as the payload, leaving no
buffer for its key; no event; nothing else changes. -/
def Obligations.EndFrameCompletesThePayload : Prop :=
  ∀ (s : State) (f : Frame) (h : Byte) (tl b : List Byte), f.data = h :: tl → h.getLsbD 7 = false →
    h.getLsbD 6 = true → lookupBuf f.id s.reasm = some b →
    ∃ tbl : Table,
      lookupBuf f.id tbl = none ∧ (∀ k, k ≠ f.id → lookupBuf k tbl = lookupBuf k s.reasm) ∧
      exec (.reasmEnd f) s = .next { s with
        reasm := tbl
        ret := some { status := .ok, value := some (.payload (b ++ tl.take (h.toNat % 16))) } } ∧
      exec (.stepReasm f) s = .next { s with
        reasm := tbl
        ret := some { status := .ok, value := some (.payload (b ++ tl.take (h.toNat % 16))) } }

/-- R116: a frame without the start bit and no buffer open for its key changes no state, returns no payload even with
the end bit set, and is reported as `ProtocolViolation` on `EVT`. That the rows `REASM.CONT` and `REASM.END`, run with no buffer open, are
violations too is the model's reading (log 8). -/
def Obligations.FrameWithNoOpenBufferIsAViolation : Prop :=
  ∀ (s : State) (f : Frame) (h : Byte) (tl : List Byte), f.data = h :: tl → h.getLsbD 7 = false →
    lookupBuf f.id s.reasm = none →
    let t : State := { s with out := s.out ++ [.evt .protocolViolation],
                              ret := some { status := .protocolViolation, value := none } }
    exec (.reasmViolation f) s = .next t ∧ exec (.stepReasm f) s = .next t ∧ exec (.reasmCont f) s = .next t ∧
    exec (.reasmEnd f) s = .next t

/-- R117: a `REASM` step writes its own key's buffer only; what it returns and leaves for its key depends on its own
key's buffer only; a poll presents the key `RESP_ID` only. -/
def Obligations.ReassemblyKeysAreIndependent : Prop :=
  (∀ (s t : State) (f : Frame) (k : Ident), exec (.stepReasm f) s = .next t → k ≠ f.id →
    lookupBuf k t.reasm = lookupBuf k s.reasm) ∧
  (∀ (s s' t t' : State) (f : Frame), lookupBuf f.id s.reasm = lookupBuf f.id s'.reasm →
    exec (.stepReasm f) s = .next t → exec (.stepReasm f) s' = .next t' →
    t.ret = t'.ret ∧ lookupBuf f.id t.reasm = lookupBuf f.id t'.reasm ∧
      ∃ os, t.out = s.out ++ os ∧ t'.out = s'.out ++ os) ∧
  (∀ (s t : State) (f : Frame), exec (.stepRx f) s = .next t →
    (∀ k, k ≠ 0x01204001#29 → lookupBuf k t.reasm = lookupBuf k s.reasm) ∧
    (f.id ≠ 0x01204001#29 → t.reasm = s.reasm))

/-- R110 to R116 and R85, R130: whatever bytes are offered at a stand-alone port, the row they are decoded to does what
the trace line with the same operand does (the rows are cases of one operation). The layout of the bytes is the
model's (log 2). -/
def Obligations.PortRowsAgreeWithTraceLines : Prop :=
  ∀ (s : State) (bs : List Byte) (i j : Instr) (p : Port) (c : Byte),
    (p = .encIn ∧ c = 0x0#8) ∨ (p = .reasmIn ∧ c = 0x1#8) ∨ (p = .decIn ∧ c = 0x2#8) →
    decode s.cfg s.reasm { port := p, bytes := bs } = .ok i →
    decode s.cfg s.reasm { port := .line, bytes := c :: bs } = .ok j →
    exec i s = exec j s

/-- R120 (derived by the spec from R112 to R115): a start frame, any frames in between that neither start nor end a
sequence on its key, and an end frame on its key complete the start frame's whole data followed by each later frame's
contribution, in order; frames on other keys in between contribute nothing. -/
def Obligations.PayloadIsStartFrameAndContributions : Prop :=
  ∀ (s : State) (f0 fm : Frame) (fs : List Frame),
    frameStart f0 = true → frameEnd f0 = false → fm.id = f0.id → fm.data ≠ [] → frameStart fm = false →
    frameEnd fm = true → (∀ f ∈ fs, f.id = f0.id → frameStart f = false ∧ frameEnd f = false) →
    ∃ t : State,
      execAll (.stepReasm f0 :: (fs.map .stepReasm ++ [.stepReasm fm])) s = .next t ∧
      t.ret = some { status := .ok, value := some (.payload
        (f0.data ++ (fs.filter (fun f => f.id = f0.id)).flatMap contribution ++ contribution fm)) } ∧
      lookupBuf f0.id t.reasm = none

/-- R118: an open buffer is not shortened, changed or deleted by any step but a frame on its own key with the start bit
or the end bit. A step that presents no frame on its key, a poll's timeout, a transport error and a stop among them, leaves
it exactly as it is. What a frame on its key with neither bit appends is R114 (clipped to the frame, decision D7), and
nothing for a frame with no data, R111 (decision D8); that an `RX` of any frame that does not reach the reassembler (no
poll waits for it, it is not extended, or not on `RESP_ID`) leaves the buffer as it is rests on R152 and R153 (decision
D24). That the row `REASM.VIOLATION`, run with the buffer open, appends as well is the model's reading (log 8). -/
def Obligations.OpenBufferSurvivesUntilStartOrEnd : Prop :=
  ∀ (s t : State) (i : Instr) (k : Ident) (b : List Byte),
    i.wf s.cfg = true → exec i s = .next t → lookupBuf k s.reasm = some b →
    ((∀ f, presented i = some f → f.id ≠ k) → lookupBuf k t.reasm = some b) ∧
    (∀ f, presented i = some f → f.id = k → frameStart f = false → frameEnd f = false →
      (∀ g, i ≠ .stepRx g) ∨ (s.cst = .cWait ∧ f.ext = true ∧ k = 0x01204001#29) →
      lookupBuf k t.reasm = some (b ++ contribution f)) ∧
    (∀ f, i = .stepRx f → f.id = k → s.cst ≠ .cWait ∨ f.ext = false ∨ k ≠ 0x01204001#29 → lookupBuf k t.reasm = some b)

/-! ### The decoder -/

/-- R131 (the order of the checks is decision D11, the spec's own choice): a payload shorter than 6 bytes gives no
reading, status `DecodeTooShort`, and changes nothing else. -/
def Obligations.PayloadUnderSixBytesIsTooShort : Prop :=
  ∀ (s : State) (p : Payload), p.length < 6 →
    exec (.decShort p) s = .next { s with ret := some { status := .decodeTooShort, value := none } } ∧
    exec (.stepDec p) s = .next { s with ret := some { status := .decodeTooShort, value := none } }

/-- R133: a pump payload of 9 or more bytes gives the two signed 16-bit big-endian fields at 5 and 7; one of 6 to 8 bytes
is too short. The operation code is the configuration's (default 0x0005, decision D3); two's complement for 16 bits is
decision D13. -/
def Obligations.DecPumpReadsTwoSignedFields : Prop :=
  (∀ (s : State) (b0 b1 b2 b3 b4 b5 b6 b7 b8 : Byte) (rest : List Byte),
    256 * b3.toNat + b4.toNat = s.cfg.opcode.pump.toNat →
    let t : State := { s with ret := some { status := .ok, value := some (.reading
      (.pump (b5 ++ b6 : BitVec 16).toInt (b7 ++ b8 : BitVec 16).toInt)) } }
    exec (.decPump (b0 :: b1 :: b2 :: b3 :: b4 :: b5 :: b6 :: b7 :: b8 :: rest)) s = .next t ∧
    exec (.stepDec (b0 :: b1 :: b2 :: b3 :: b4 :: b5 :: b6 :: b7 :: b8 :: rest)) s = .next t) ∧
  (∀ (s : State) (b0 b1 b2 b3 b4 b5 : Byte) (rest : List Byte),
    256 * b3.toNat + b4.toNat = s.cfg.opcode.pump.toNat → rest.length ≤ 2 →
    let t : State := { s with ret := some { status := .decodeTooShort, value := none } }
    exec (.decPump (b0 :: b1 :: b2 :: b3 :: b4 :: b5 :: rest)) s = .next t ∧
    exec (.stepDec (b0 :: b1 :: b2 :: b3 :: b4 :: b5 :: rest)) s = .next t)

/-- R134: a pressure payload of 6 or more bytes gives the unsigned byte at 5. -/
def Obligations.DecPressureReadsOneUnsignedByte : Prop :=
  ∀ (s : State) (b0 b1 b2 b3 b4 b5 : Byte) (rest : List Byte), s.cfg.wf = true →
    256 * b3.toNat + b4.toNat = s.cfg.opcode.pressure.toNat →
    let t : State := { s with ret := some { status := .ok, value := some (.reading (.pressure b5.toNat)) } }
    exec (.decPres (b0 :: b1 :: b2 :: b3 :: b4 :: b5 :: rest)) s = .next t ∧
    exec (.stepDec (b0 :: b1 :: b2 :: b3 :: b4 :: b5 :: rest)) s = .next t

/-- R135: a temperature payload of 6 or more bytes gives the signed byte at 5. -/
def Obligations.DecTemperatureReadsOneSignedByte : Prop :=
  ∀ (s : State) (b0 b1 b2 b3 b4 b5 : Byte) (rest : List Byte), s.cfg.wf = true →
    256 * b3.toNat + b4.toNat = s.cfg.opcode.temperature.toNat →
    let t : State := { s with ret := some { status := .ok, value := some (.reading (.temperature b5.toInt)) } }
    exec (.decTemp (b0 :: b1 :: b2 :: b3 :: b4 :: b5 :: rest)) s = .next t ∧
    exec (.stepDec (b0 :: b1 :: b2 :: b3 :: b4 :: b5 :: rest)) s = .next t

/-- R136: a wheel payload of 14 or more bytes gives the four unsigned 16-bit big-endian fields at 6, 8, 10 and 12, all
from this payload, byte 5 unread; one of 6 to 13 bytes is too short. -/
def Obligations.DecWheelReadsFourFieldsOfOnePayload : Prop :=
  (∀ (s : State) (b0 b1 b2 b3 b4 b5 b6 b7 b8 b9 b10 b11 b12 b13 : Byte) (rest : List Byte), s.cfg.wf = true →
    256 * b3.toNat + b4.toNat = s.cfg.opcode.wheels.toNat →
    let p := b0 :: b1 :: b2 :: b3 :: b4 :: b5 :: b6 :: b7 :: b8 :: b9 :: b10 :: b11 :: b12 :: b13 :: rest
    let t : State := { s with ret := some { status := .ok, value := some (.reading
      (.wheels (b6 ++ b7 : BitVec 16).toNat (b8 ++ b9 : BitVec 16).toNat (b10 ++ b11 : BitVec 16).toNat
        (b12 ++ b13 : BitVec 16).toNat)) } }
    exec (.decWheel p) s = .next t ∧ exec (.stepDec p) s = .next t) ∧
  (∀ (s : State) (b0 b1 b2 b3 b4 b5 : Byte) (rest : List Byte), s.cfg.wf = true →
    256 * b3.toNat + b4.toNat = s.cfg.opcode.wheels.toNat → rest.length ≤ 7 →
    let t : State := { s with ret := some { status := .decodeTooShort, value := none } }
    exec (.decWheel (b0 :: b1 :: b2 :: b3 :: b4 :: b5 :: rest)) s = .next t ∧
    exec (.stepDec (b0 :: b1 :: b2 :: b3 :: b4 :: b5 :: rest)) s = .next t)

/-- R132 (decision D5, the spec's own choice): a payload of 6 or more bytes whose operation code is none of the four
gives no reading, status `UnknownOperation`, and changes nothing else. -/
def Obligations.UnknownOperationCodeDecodesToNothing : Prop :=
  ∀ (s : State) (b0 b1 b2 b3 b4 b5 : Byte) (rest : List Byte),
    256 * b3.toNat + b4.toNat ≠ s.cfg.opcode.pump.toNat → 256 * b3.toNat + b4.toNat ≠ s.cfg.opcode.pressure.toNat →
    256 * b3.toNat + b4.toNat ≠ s.cfg.opcode.temperature.toNat → 256 * b3.toNat + b4.toNat ≠ s.cfg.opcode.wheels.toNat →
    let t : State := { s with ret := some { status := .unknownOperation, value := none } }
    exec (.decUnknown (b0 :: b1 :: b2 :: b3 :: b4 :: b5 :: rest)) s = .next t ∧
    exec (.stepDec (b0 :: b1 :: b2 :: b3 :: b4 :: b5 :: rest)) s = .next t

/-- R141: `DEC` depends on its operand and the constant table alone, and no DEC row, on any payload, changes a state
element. -/
def Obligations.DecReadsOnlyItsOperandAndTheConstants : Prop :=
  (∀ (s s' : State) (p : Payload), s.cfg = s'.cfg →
    ∃ rep : Report, exec (.stepDec p) s = .next { s with ret := some rep } ∧
      exec (.stepDec p) s' = .next { s' with ret := some rep }) ∧
  ∀ (s : State) (p : Payload), ∀ i ∈ [Instr.decShort p, .decPump p, .decPres p, .decTemp p, .decWheel p, .decUnknown p],
    ∃ rep : Report, ∀ s' : State, s'.cfg = s.cfg → exec i s' = .next { s' with ret := some rep }

/-- R58 (derived by the spec): the decoder's result depends on no byte at an index at or beyond the payload's length,
nor at or beyond 14, nor on bytes 1 and 2. -/
def Obligations.DecoderReadsNoByteOutOfRange : Prop :=
  ∀ (cfg : Config) (n : Nat) (rd rd' : Nat → Byte),
    (∀ i, i < n → i < 14 → i ≠ 1 → i ≠ 2 → rd i = rd' i) → decView cfg n rd = decView cfg n rd'

/-- R119 (decision D10, the spec's own choice): a realisation that keeps the first `room` bytes of a payload and a
length that saturates at `top`, both at least 14, decodes it as the whole payload is decoded. -/
def Obligations.StoredPayloadDecodesAlike : Prop :=
  ∀ (cfg : Config) (p : Payload) (room top : Nat), 14 ≤ room → 14 ≤ top →
    decStored cfg (storePayload room top p) = dec cfg p

/-- R137 to R139 (exact rationals are decision D12, the spec's own choice): the worked examples, and for every reading in
range the physical values the rules bound. -/
def Obligations.PhysicalValuesAreExactAndBounded : Prop :=
  (barOf 61 = 10004 / 10000 ∧ kmhOf 1000 = 156 / 10 ∧ fahrenheitOf (-10) = 14) ∧
  ∀ r : Reading, readingInRange r = true →
    match r with
    | .pressure raw => physical r = [(raw : Rat) * (41 / 2500)] ∧ ∀ v ∈ physical r, 0 ≤ v ∧ v ≤ 4182 / 1000
    | .wheels fr fl rr rl =>
      physical r = [(fr : Rat) * (39 / 2500), (fl : Rat) * (39 / 2500), (rr : Rat) * (39 / 2500), (rl : Rat) * (39 / 2500)] ∧
        ∀ v ∈ physical r, 0 ≤ v ∧ v ≤ 1022346 / 1000
    | .temperature c => physical r = [(c : Rat)] ∧ fahrenheitOf c = (c : Rat) * 9 / 5 + 32
    | .pump p q => physical r = [(p : Rat), (q : Rat)]

/-! ### The poll sequencer -/

/-- R151 (what a failed send does to the round is decision D20, the spec's own choice): in `C_ISSUE` the polled sensor's
request frame is sent; then the poll waits, or ends with `TransportError` and the round with it. -/
def Obligations.IssueSendsTheRequestAndWaits : Prop :=
  ∀ s : State, s.cst = .cIssue →
    let k := orderAt s.cfg.roundOrder s.idx
    let f : Frame := { ext := true, id := 0x000FFFFE#29, data := [0xCD#8, 0x1A#8] ++ template k ++ [0x01#8, 0x00#8] }
    exec (.stepIssue true) s = .next { s with out := s.out ++ [.tx f], cst := .cWait,
                                              ret := some { status := .ok, value := none } } ∧
    exec (.stepIssue false) s = .next { s with out := s.out ++ [.tx f, .pollDone k .transportError none],
                                               roundErr := true, cst := .cEnd,
                                               ret := some { status := .transportError, value := none } }

/-- R153: in `C_WAIT` a frame that is not extended or not on `RESP_ID` is ignored; any other is reassembled, a completed
payload decoded, an accepted reading made pending with `POLL_DONE`, and in every other case the poll keeps waiting.
What `REASM` and `DEC` do is said by naming the steps `STEP.REASM` and `STEP.DEC`; `accept(r)` is KindCheckOfAReading's.
That an ignored frame reports `OK`, and that the report is that of the last operation performed, is the model's choice
(log 6). -/
def Obligations.RxReassemblesDecodesAndAccepts : Prop :=
  ∀ (s : State) (f : Frame), s.cst = .cWait →
    (f.ext = false ∨ f.id ≠ 0x01204001#29 →
      exec (.stepRx f) s = .next { s with ret := some { status := .ok, value := none } }) ∧
    (f.ext = true → f.id = 0x01204001#29 → ∃ (t : State) (rep : Report),
      exec (.stepReasm f) s = .next t ∧ t.ret = some rep ∧
      ((rep.value = none ∧ exec (.stepRx f) s = .next t) ∨
       ∃ (p : Payload) (u : State) (drep : Report),
        rep.value = some (.payload p) ∧ exec (.stepDec p) t = .next u ∧ u.ret = some drep ∧
        ((drep.value = none ∧ exec (.stepRx f) s = .next u) ∨
         ∃ r, drep.value = some (.reading r) ∧
          (s.accepts r = true → exec (.stepRx f) s =
            .next { u with pend := some r, cst := .cPub,
                           out := u.out ++ [.pollDone (orderAt s.cfg.roundOrder s.idx) .ok (some r)] }) ∧
          (s.accepts r = false → exec (.stepRx f) s =
            .next { u with out := u.out ++ [.evt .kindMismatch],
                           ret := some { status := .kindMismatch, value := none } }))))

/-- R155 (decision D4, the spec's own choice): under `DISCARD` a reading is accepted exactly when it is of the polled
sensor's kind; under `ACCEPT_EMBEDDED` every reading is. -/
def Obligations.KindCheckOfAReading : Prop :=
  ∀ (s : State) (r : Reading),
    (s.cfg.policy = .discard → (s.accepts r = true ↔ kindOf r = orderAt s.cfg.roundOrder s.idx)) ∧
    (s.cfg.policy = .acceptEmbedded → s.accepts r = true)

/-- R154: in `C_WAIT` the timeout emits `POLL_DONE(s, Timeout, none)` and goes on to the next sensor, or to the round's
end after the last; `REASM`, `DASH` and everything else stay. -/
def Obligations.TimeoutEndsThePollAndGoesOn : Prop :=
  ∀ s : State, s.cst = .cWait →
    let k := orderAt s.cfg.roundOrder s.idx
    let t : State := { s with out := s.out ++ [.pollDone k .timeout none],
                              ret := some { status := .timeout, value := none } }
    (s.idx.val < 3 → exec .stepTmo s = .next { t with idx := s.idx + 1, cst := .cIssue }) ∧
    (s.idx = 3 → exec .stepTmo s = .next { t with cst := .cEnd })

/-- R156 (decision D20, the spec's own choice): in `C_WAIT` a receive failure ends the poll with `TransportError` and the
round with it; `REASM`, `DASH` and everything else stay. -/
def Obligations.ReceiveFailureEndsPollAndRound : Prop :=
  ∀ s : State, s.cst = .cWait →
    exec .stepRxerr s = .next { s with
      out := s.out ++ [.pollDone (orderAt s.cfg.roundOrder s.idx) .transportError none], roundErr := true, cst := .cEnd,
      ret := some { status := .transportError, value := none } }

/-- R152 (decisions D22 to D24, the spec's own choices): while a poll waits the round's other steps do nothing and no
collector step touches `DASH`; outside `C_WAIT` no frame, receive failure or timeout is taken: the frame waits with the
host, which keeps the frames it has (R210), and the other two have no effect. That a step not enabled leaves the state
as it is rests on R212 (decision D28) and log 3, how the host's frames are kept on log 17. -/
def Obligations.WaitAdmitsOnlyFramesFailureAndTimeout : Prop :=
  (∀ s : State, s.cst = .cWait →
    (∀ t, exec .stepTop s = .next s ∧ exec (.stepPub t) s = .next s ∧ exec .stepEnd s = .next s) ∧
    ∀ (i : Instr) (t : State), agentOf i = .collector → exec i s = .next t → t.dash = s.dash) ∧
  (∀ s : State, s.cst ≠ .cWait →
    (∀ f, exec (.stepRx f) s = .next { s with held := s.held ++ [f] }) ∧
    exec .stepTmo s = .next s ∧ exec .stepRxerr s = .next s)

/-- R209 in part: during a poll, a frame whose processing ends in `ProtocolViolation`, `EmptyFrame`, `DecodeTooShort`,
`UnknownOperation` or `KindMismatch` leaves the poll waiting, the record, the counters and the pending reading as they
were, and emits no `POLL_DONE`. -/
def Obligations.AbsorbedStatusesKeepThePollWaiting : Prop :=
  ∀ (s t : State) (f : Frame) (rep : Report), s.cst = .cWait → exec (.stepRx f) s = .next t → t.ret = some rep →
    rep.status ≠ .ok →
    t.cst = .cWait ∧ t.idx = s.idx ∧ t.pend = s.pend ∧ t.dash = s.dash ∧ t.roundErr = s.roundErr ∧
      t.out.countP isPollDone = s.out.countP isPollDone ∧ rep.value = none

/-- R150 in part ("This is strictly one outstanding request at a time") and R174: every step keeps the balance of
requests sent and polls ended, and the success counter's meaning, in every state that meets the invariant. -/
def Obligations.PollBalanceAndSuccessCountKept : Prop :=
  ∀ s t : State, Inv s → PollBalance s → SuccessCount s → step s = .next t → PollBalance t ∧ SuccessCount t

/-! ### The collector's round and the record -/

/-- R171 (when `RUN` is read is decision D21, the spec's own choice): at `C_TOP` a new round starts, or the loop is left
for good when `RUN` is false. -/
def Obligations.TopStartsARoundOrLeavesTheLoop : Prop :=
  ∀ s : State, s.cst = .cTop →
    (s.run = true → exec .stepTop s = .next { s with idx := 0, roundOk := false, roundErr := false, pend := none,
                                                     cst := .cIssue, ret := some { status := .ok, value := none } }) ∧
    (s.run = false → exec .stepTop s = .next { s with cst := .cExit, ret := some { status := .ok, value := none } })

/-- R174 (decisions D14, D16, D18, the spec's own choices): a publish writes the reading's field group whole, adds one to
the success counter modulo 2^32, stamps the record with the host's time modulo 2^64, and goes on to the next sensor or
the round's end; no other field of the record and nothing else of the state changes. -/
def Obligations.PublishWritesOneGroupCountAndStamp : Prop :=
  ∀ (s : State) (r : Reading) (n : Nat), s.cst = .cPub → s.pend = some r →
    ∃ (d : Dash) (stamp : Stamp),
      (∀ k, groupOf d k = if k = kindOf r then some r else groupOf s.dash k) ∧
      d.succ.toNat = (s.dash.succ.toNat + 1) % 2 ^ 32 ∧ d.err = s.dash.err ∧ d.last = some stamp ∧
      stamp.toNat = n % 2 ^ 64 ∧
      (s.idx.val < 3 → exec (.stepPub n) s = .next { s with
        dash := d, roundOk := true, pend := none, idx := s.idx + 1, cst := .cIssue,
        ret := some { status := .ok, value := none } }) ∧
      (s.idx = 3 → exec (.stepPub n) s = .next { s with
        dash := d, roundOk := true, pend := none, cst := .cEnd, ret := some { status := .ok, value := none } })

/-- R33: the field group of each sensor kind, and that a publish of a reading writes the group of its kind only. -/
def Obligations.EachKindHasItsOwnFieldGroup : Prop :=
  ∀ (s t : State) (r : Reading) (n : Nat), s.cst = .cPub → s.pend = some r → exec (.stepPub n) s = .next t →
    match r with
    | .temperature _ =>
      t.dash.temp = some r ∧ t.dash.pres = s.dash.pres ∧ t.dash.curr = s.dash.curr ∧ t.dash.wheel = s.dash.wheel
    | .pressure _ =>
      t.dash.pres = some r ∧ t.dash.temp = s.dash.temp ∧ t.dash.curr = s.dash.curr ∧ t.dash.wheel = s.dash.wheel
    | .pump _ _ =>
      t.dash.curr = some r ∧ t.dash.temp = s.dash.temp ∧ t.dash.pres = s.dash.pres ∧ t.dash.wheel = s.dash.wheel
    | .wheels _ _ _ _ =>
      t.dash.wheel = some r ∧ t.dash.temp = s.dash.temp ∧ t.dash.pres = s.dash.pres ∧ t.dash.curr = s.dash.curr

/-- R176 (decisions D19, D20, the spec's own choices): at `C_END` the error counter rises by one modulo 2^32 exactly when
a transport error cut the round short or no sensor was published; everything else of the record stays, and the collector
is at the top again. -/
def Obligations.RoundEndCountsAnErrorRoundOnce : Prop :=
  ∀ s : State, s.cst = .cEnd →
    ∃ e : Count,
      exec .stepEnd s = .next { s with dash := { s.dash with err := e }, cst := .cTop,
                                       ret := some { status := .ok, value := none } } ∧
      (s.roundErr = true ∨ s.roundOk = false → e.toNat = (s.dash.err.toNat + 1) % 2 ^ 32) ∧
      (s.roundErr = false → s.roundOk = true → e = s.dash.err)

/-- R178: the collector's writes to `DASH` are the steps `PUB` in `C_PUB` and `END` in `C_END`; no other collector step
reads or writes it (run from two records, it leaves the two records and is the same otherwise). -/
def Obligations.OnlyPublishAndRoundEndTouchTheRecord : Prop :=
  (∀ (s t : State) (i : Instr), exec i s = .next t → t.dash ≠ s.dash →
    (∃ n, i = .stepPub n ∧ s.cst = .cPub) ∨ (i = .stepEnd ∧ s.cst = .cEnd)) ∧
  (∀ (s t : State) (i : Instr) (d : Dash), agentOf i = .collector → (∀ n, i ≠ .stepPub n) → i ≠ .stepEnd →
    exec i s = .next t → t.dash = s.dash ∧ exec i { s with dash := d } = .next { t with dash := d })

/-- R172 (decision D17, the spec's own choice): steps with no `TOP` among them send requests to the sensors of the round
order in that order, each at most once. -/
def Obligations.RoundPollsEachSensorAtMostOnceInOrder : Prop :=
  ∀ (is : List Instr) (s t : State), Inv s → Instr.stepTop ∉ is → execAll is s = .next t →
    ∃ ks : List Sensor, ks.Sublist (orderList s.cfg.roundOrder) ∧
      (t.out.drop s.out.length).filter isTx =
        ks.map (fun k => Output.tx
          { ext := true, id := 0x000FFFFE#29, data := [0xCD#8, 0x1A#8] ++ template k ++ [0x01#8, 0x00#8] })

/-! ### The renderer -/

/-- R180 (decision D26, the spec's own choice): with `RUN` true the snapshot is the whole record, presented and kept; with
`RUN` false the renderer leaves its loop and copies nothing. -/
def Obligations.SnapshotCopiesTheWholeRecord : Prop :=
  ∀ s : State, s.rst = .rTop →
    (s.run = true → exec .stepSnap s = .next { s with snap := some s.dash, out := s.out ++ [.snapOut s.dash],
                                                      ret := some { status := .ok, value := none } }) ∧
    (s.run = false → exec .stepSnap s = .next { s with rst := .rExit, ret := some { status := .ok, value := none } })

/-- R37: the renderer never writes `DASH` and never writes `RUN`; after start only `STOP` writes `RUN`. -/
def Obligations.RendererWritesNeitherRecordNorRun : Prop :=
  (∀ (s t : State) (i : Instr), agentOf i = .renderer → exec i s = .next t → t.dash = s.dash ∧ t.run = s.run) ∧
  (∀ (s t : State) (i : Instr), s.conn ≠ .connNone → exec i s = .next t → t.run ≠ s.run → i = .stepStop)

/-- R66 in part: two snapshots with no collector step between them are equal, whatever other steps lie between. -/
def Obligations.SnapshotsWithNoCollectorStepBetweenAreEqual : Prop :=
  ∀ (is : List Instr) (s t u v : State), (∀ i ∈ is, agentOf i ≠ .collector) →
    s.rst = .rTop → s.run = true → exec .stepSnap s = .next t → execAll is t = .next u →
    u.rst = .rTop → u.run = true → exec .stepSnap u = .next v →
    v.snap = t.snap ∧ v.snap = some s.dash

/-- R182 (derived by the spec) and the concurrency property of the source's §8: every step keeps that the record, the
pending reading and the renderer's copy hold only readings that earlier polls ended with, and that every snapshot ever
presented held only readings of polls that ended before it. -/
def Obligations.EverySnapshotHoldsOnlyEarlierReadings : Prop :=
  ∀ s t : State, Provenance s → step s = .next t → Provenance t

/-! ### Start, stop and the end of a run -/

/-- R236 (decision D35, the spec's own choice): the connect brings the transport up, sets `RUN` and starts both loops, in
one step; `REASM`, `DASH` and everything else stay. -/
def Obligations.StartBringsUpBothLoops : Prop :=
  ∀ s : State, s.conn = .connNone → s.exit = none →
    exec .stepStart s = .next { s with conn := .connUp, run := true, cst := .cTop, rst := .rTop,
                                       ret := some { status := .ok, value := none } }

/-- R237: a failed connect decides the exit status, non-zero, presents it, and changes nothing else; after it no step of
any agent or of the host, in any number, changes anything of the block: frames offered wait with the host (R210; log 17).
The report `OK` of the failed connect is the model's (log 6), leaving out the stand-alone operations its reading (log 5),
and that a step not enabled leaves the state as it is rests on R212 (decision D28) and log 3. -/
def Obligations.FailedConnectEndsTheRun : Prop :=
  ∀ s : State, s.conn = .connNone → s.exit = none →
    ∃ t : State,
      t = { s with exit := some .exitFail, out := s.out ++ [.exitOut .exitFail],
                   ret := some { status := .ok, value := none } } ∧
      exec .stepConnfail s = .next t ∧ exitCode .exitFail ≠ 0 ∧
      (Inv s → ∀ is : List Instr, (∀ i ∈ is, agentOf i ≠ .standAlone) → execAll is t =
        .next { t with held := t.held ++ is.filterMap offeredFrame })

/-- R184: while connected, `STOP` clears `RUN` and nothing else changes; a second `STOP` has no further effect; while not
connected it is not enabled (R184, I19), and that it then leaves the state as it is rests on R212 (decision D28) and log
3; the report `OK` is log 6. -/
def Obligations.StopClearsRunOnly : Prop :=
  (∀ s : State, s.conn = .connUp →
    let t : State := { s with run := false, ret := some { status := .ok, value := none } }
    exec .stepStop s = .next t ∧ exec .stepStop t = .next t) ∧
  (∀ s : State, s.conn ≠ .connUp → exec .stepStop s = .next s)

/-- R238 (decision D35, the spec's own choice): after both loops are left, the shutdown releases the transport, decides
exit status 0 and presents both; nothing else changes. -/
def Obligations.ShutdownReleasesTheTransport : Prop :=
  ∀ s : State, s.cst = .cExit → s.rst = .rExit → s.conn = .connUp →
    exec .stepShutdown s = .next { s with conn := .connDown, exit := some .exitOk,
                                          out := s.out ++ [.disconnect, .exitOut .exitOk],
                                          ret := some { status := .ok, value := none } } ∧
    exitCode .exitOk = 0

/-- R35: `START` sets `RUN` and `STOP` clears it, and no other step changes it; the loops read it at their tops, `TOP` and
`SNAP`, which do something else when run from its other value, and no other step but its two writers does; once cleared it is never
true again, however the run goes on. -/
def Obligations.RunIsNeverSetAgain : Prop :=
  (∀ s : State, s.conn = .connNone → s.exit = none → ∃ t, exec .stepStart s = .next t ∧ t.run = true) ∧
  (∀ s : State, s.conn = .connUp → ∃ t, exec .stepStop s = .next t ∧ t.run = false) ∧
  (∀ (s t : State) (i : Instr), exec i s = .next t →
    (s.run = false → t.run = true → i = .stepStart) ∧ (s.run = true → t.run = false → i = .stepStop)) ∧
  (∀ s t : State, s.cst = .cTop → exec .stepTop { s with run := true } = .next t →
    exec .stepTop { s with run := false } ≠ .next { t with run := false }) ∧
  (∀ s t : State, s.rst = .rTop → exec .stepSnap { s with run := true } = .next t →
    exec .stepSnap { s with run := false } ≠ .next { t with run := false }) ∧
  (∀ (s t : State) (i : Instr) (b : Bool), i ≠ .stepTop → i ≠ .stepSnap → i ≠ .stepStart → i ≠ .stepStop →
    exec i s = .next t → exec i { s with run := b } = .next { t with run := b }) ∧
  (∀ (is : List Instr) (s t : State), s.conn ≠ .connNone → s.run = false → execAll is s = .next t → t.run = false)

/-- R40, R157, R208 (decision D27, the spec's own choice; that a second caller's poll is an `ISSUE` in `C_WAIT` is the
model's reading, log 4): a second poll sets the fault mark `PollBusy` and does nothing else; no other step sets the mark,
and no step clears it. -/
def Obligations.SecondPollAloneSetsTheFaultMarkForGood : Prop :=
  (∀ (s : State) (ok : Bool), s.cst = .cWait → exec (.stepIssue ok) s = .next { s with fault := some .pollBusy }) ∧
  (∀ (s t : State) (i : Instr), exec i s = .next t →
    (t.fault ≠ s.fault → s.cst = .cWait ∧ ∃ ok, i = .stepIssue ok) ∧ (s.fault = some .pollBusy → t.fault = s.fault))

/-- R41, R53 (decisions D1, D31, the spec's own choices): no step writes the configuration; and the record of outputs
(the model's own, log 7) only grows; the frames the host keeps (log 17) change by one offered outside a poll alone. -/
def Obligations.ConstantsAreNeverWrittenAndOutputsOnlyGrow : Prop :=
  ∀ (s t : State) (i : Instr), exec i s = .next t →
    t.cfg = s.cfg ∧ t.trace = s.trace ∧ t.picks = s.picks ∧ (∃ os, t.out = s.out ++ os) ∧
    (t.held = s.held ∨ ∃ f, i = .stepRx f ∧ s.cst ≠ .cWait ∧ t.held = s.held ++ [f])

/-- R212 and R210 (decision D28, the spec's own choice; log 3): a step that is not enabled does nothing, for each step that
has an enabling condition, but that a frame offered to `RX` waits with the host (log 17). -/
def Obligations.StepsNotEnabledDoNothing : Prop :=
  ∀ s : State,
    (s.cst ≠ .cTop → exec .stepTop s = .next s) ∧
    (s.cst ≠ .cIssue → s.cst ≠ .cWait → ∀ ok, exec (.stepIssue ok) s = .next s) ∧
    (s.cst ≠ .cWait → (∀ f, exec (.stepRx f) s = .next { s with held := s.held ++ [f] }) ∧
      exec .stepTmo s = .next s ∧ exec .stepRxerr s = .next s) ∧
    (s.cst ≠ .cPub → ∀ n, exec (.stepPub n) s = .next s) ∧
    (s.cst ≠ .cEnd → exec .stepEnd s = .next s) ∧
    (s.rst ≠ .rTop → exec .stepSnap s = .next s) ∧
    (s.conn ≠ .connNone ∨ s.exit ≠ none → exec .stepStart s = .next s ∧ exec .stepConnfail s = .next s) ∧
    (s.conn ≠ .connUp → exec .stepStop s = .next s) ∧
    (s.cst ≠ .cExit ∨ s.rst ≠ .rExit ∨ s.conn ≠ .connUp → exec .stepShutdown s = .next s)

/-- R45, R230 (the values are the source's for `REASM`, the field groups, `CONN` and `EXIT`, and decisions D1, D15, D27
for the rest; the default configuration is R8, R11, R15): the block right after reset. -/
def Obligations.ResetValues : Prop :=
  let s := State.reset
  (∀ k, lookupBuf k s.reasm = none) ∧ s.cst = .cInit ∧ s.idx = 0 ∧ s.roundOk = false ∧ s.roundErr = false ∧
  s.pend = none ∧ (∀ k, groupOf s.dash k = none) ∧ s.dash.succ = 0 ∧ s.dash.err = 0 ∧ s.dash.last = none ∧
  s.run = false ∧ s.snap = none ∧ s.rst = .rInit ∧ s.conn = .connNone ∧ s.exit = none ∧ s.fault = none ∧ s.out = [] ∧
  s.cfg.opcode = { pump := 0x0005#16, pressure := 0x0003#16, temperature := 0x0002#16, wheels := 0x0006#16 } ∧
  s.cfg.policy = .discard ∧
  orderList s.cfg.roundOrder = [.pumpCurrent, .oilPressure, .oilTemperature, .wheelSpeeds]

/-- R231 (decision D1, the spec's own choice): right after reset, whatever the host has in store, no step of an agent or
of the host does anything but the two connect results, and those do; a frame offered waits with the host (R210; log 17).
Leaving out the stand-alone operations is the model's reading (log 5); that a step not enabled leaves the state as it is
rests on R212 (decision D28) and log 3. -/
def Obligations.AfterResetOnlyTheConnectResultIsEnabled : Prop :=
  ∀ (os : List Offer) (i : Instr), agentOf i ≠ .standAlone →
    let s : State := { State.reset with trace := os }
    (exec i s = .next { s with held := (offeredFrame i).toList } ↔ i ≠ .stepStart ∧ i ≠ .stepConnfail)

/-- R185, R250 (derived by the spec, decision D22): from every connected state that meets the invariant, with `RUN` false,
at most 12 steps of the agents, the host only letting polls time out and answering the shutdown, reach the clean end. -/
def Obligations.AfterStopTwelveStepsReachTheCleanEnd : Prop :=
  ∀ s : State, Inv s → s.conn = .connUp → s.run = false →
    ∃ (is : List Instr) (t : State), is.length ≤ 12 ∧
      (∀ i ∈ is, i ∈ [Instr.stepTop, .stepIssue true, .stepTmo, .stepEnd, .stepSnap, .stepShutdown] ∨ ∃ n, i = .stepPub n) ∧
      execAll is s = .next t ∧ t.exit = some .exitOk ∧ t.conn = .connDown ∧ t.cst = .cExit ∧ t.rst = .rExit ∧
      t.fault = s.fault ∧ t.snap = s.snap

/-- R243, R185: after the stop, however the run goes on, no new round starts: at most four more requests are sent. -/
def Obligations.AfterStopAtMostFourMoreRequests : Prop :=
  ∀ (is : List Instr) (s t : State), Inv s → s.conn = .connUp → s.run = false → execAll is s = .next t →
    t.out.countP isTx ≤ s.out.countP isTx + 4

/-! ### Encodings and the step -/

/-- What a step runs. The next line of the trace, decoded under the state's configuration and reassembly table, with that
line consumed (log 1), unless a poll waits and the host keeps frames: then, as the host freely chooses (R152, R220; log
17), a kept frame is taken by `RX` in its place. A line that is no instruction is refused by the decoder's own reason (log
2); with no line left the step stops (log 12). -/
def Obligations.StepRunsTheDecodedOffer : Prop :=
  (∀ (s : State) (o : Offer) (rest : List Offer) (i : Instr), s.cst ≠ .cWait ∨ s.held = [] → s.trace = o :: rest →
    decode s.cfg s.reasm o = .ok i → step s = exec i { s with trace := rest }) ∧
  (∀ (s : State) (o : Offer) (rest : List Offer) (r : Reject), s.cst ≠ .cWait ∨ s.held = [] → s.trace = o :: rest →
    decode s.cfg s.reasm o = .error r → step s = .refused (.undecodable r)) ∧
  (∀ s : State, s.cst ≠ .cWait ∨ s.held = [] → s.trace = [] → step s = .fault .hostSilent) ∧
  (∀ s : State, s.cst = .cWait → s.held ≠ [] →
    (∃ (before after : List Frame) (f : Frame), s.held = before ++ f :: after ∧
      step s = exec (.stepRx f) { s with held := before ++ after, picks := s.picks + 1 }) ∨
    (∀ (o : Offer) (rest : List Offer), s.trace = o :: rest →
      (∀ i, decode s.cfg s.reasm o = .ok i → step s = exec i { s with trace := rest, picks := s.picks + 1 }) ∧
      (∀ r, decode s.cfg s.reasm o = .error r → step s = .refused (.undecodable r))) ∧
    (s.trace = [] → step s = .fault .hostSilent))

/-- R87, I22 (decision D32, the spec's own notation): a trace line with the reserved step code 0xF is refused, whatever its
operands. That a code is a whole byte, so that one of 16 or more is refused as well, is the model's layout (log 2). The
line is the next offer: no poll waits, or the host keeps no frame (log 17). -/
def Obligations.ReservedStepCodeIsRefused : Prop :=
  ∀ (s : State) (c : Byte) (ops : List Byte) (rest : List Offer), s.cst ≠ .cWait ∨ s.held = [] →
    s.trace = { port := .line, bytes := c :: ops } :: rest →
    (c = 0xF#8 → step s = .refused (.undecodable .reservedStepCode)) ∧
    (16 ≤ c.toNat → step s = .refused (.undecodable .codeTooWide))

/-- Words written out from R76, R81, R85 and R87 decode to the rows they stand for. -/
def Obligations.SampleWordsDecode : Prop :=
  decode defaultConfig [] { port := .encIn, bytes := [0b00000010#8] } = .ok .encTemp ∧
  decode defaultConfig [] { port := .encIn, bytes := [0b00000101#8] } = .ok (.encUnknown 5#3) ∧
  decode defaultConfig [] { port := .reasmIn, bytes := [0x01#8, 0x20#8, 0x40#8, 0x01#8, 0b11000110#8, 0x00#8] } =
    .ok (.reasmSingle { ext := true, id := 0x01204001#29, data := [0xC6#8, 0x00#8] }) ∧
  decode defaultConfig [] { port := .reasmIn, bytes := [0x01#8, 0x20#8, 0x40#8, 0x01#8, 0b01000011#8, 0x00#8] } =
    .ok (.reasmViolation { ext := true, id := 0x01204001#29, data := [0x43#8, 0x00#8] }) ∧
  decode defaultConfig [(0x01204001#29, [0x87#8])]
      { port := .reasmIn, bytes := [0x01#8, 0x20#8, 0x40#8, 0x01#8, 0b01000011#8, 0x00#8] } =
    .ok (.reasmEnd { ext := true, id := 0x01204001#29, data := [0x43#8, 0x00#8] }) ∧
  decode defaultConfig [] { port := .decIn, bytes := [0xC6#8, 0x00#8, 0x00#8, 0x00#8, 0x02#8, 0x19#8] } =
    .ok (.decTemp [0xC6#8, 0x00#8, 0x00#8, 0x00#8, 0x02#8, 0x19#8]) ∧
  decode defaultConfig [] { port := .line, bytes := [0x6#8, 0x01#8] } = .ok (.stepIssue true) ∧
  decode defaultConfig [] { port := .line, bytes := [0xA#8, 0x64#8] } = .ok (.stepPub 0x64) ∧
  decode defaultConfig [] { port := .line, bytes := [0xE#8] } = .ok .stepShutdown

/-- Every well-formed instruction, with every operand its encoding admits, decodes back from its encoding, in every
table in which its row can be selected. The layout of the bytes is the model's (log 2). -/
def Obligations.DecodeOfEncodeIsTheInstruction : Prop :=
  ∀ (cfg : Config) (bufs : Table) (i : Instr), cfg.wf = true → i.wf cfg = true → rowFits bufs i = true →
    decode cfg bufs (encode i) = .ok i

/-- What the decoder accepts is a well-formed instruction whose row fits the table, and, but for leading zeros of a
`PUB`'s time, encodes back to the bytes it came from. -/
def Obligations.DecodedInstructionsAreWellFormed : Prop :=
  ∀ (cfg : Config) (bufs : Table) (o : Offer) (i : Instr), cfg.wf = true → decode cfg bufs o = .ok i →
    i.wf cfg = true ∧ rowFits bufs i = true ∧ ((∀ n, i ≠ .stepPub n) → encode i = o)

/-! ### The invariants -/

/-- Every step keeps the invariant: the configuration, the reassembly table's form and what its buffers begin with
(R27, R112 to R115), the record's and the snapshot's kinds and ranges (R23, R31, R32, R36), the loops, the transport and
the exit status together (R35, R171, R180, R231, R236 to R239), and the collector's private state (R30, R155). -/
def Obligations.EveryStepKeepsTheInvariant : Prop :=
  ∀ s t : State, Inv s → step s = .next t → Inv t

/-- The reset state meets the invariant and every other property that steps keep. -/
def Obligations.ResetMeetsTheInvariants : Prop :=
  Inv State.reset ∧ PollBalance State.reset ∧ SuccessCount State.reset ∧ Provenance State.reset
end

