-- ==== Sys2Proof/Laws/Decode.lean ====
section
/-! SUPPORT. Laws/Decode.lean: each operand field read back from the bytes the encoder writes for it. -/

namespace Sys2Proof

open Sys2Proof.Machine

/-- A select code read back. -/
theorem decodeSel_encodeSel (sel : Sel) : decodeSel (encodeSel sel) = .ok sel := by revert sel; decide

/-- A frame read back, every identifier, both kinds of identifier and up to 8 data bytes. -/
theorem decodeFrame_encodeFrame {f : Frame} (h : f.wf = true) : decodeFrame (encodeFrame f) = .ok f := by
  obtain ⟨ext, id, data⟩ := f
  have hd : data.length ≤ 8 := by simpa [Frame.wf] using h
  have hi : id.toNat < 536870912 := id.isLt
  have hv : ∀ w : Nat, w < 2 ^ 32 →
      beValue [BitVec.ofNat 8 (w / 2 ^ 24), BitVec.ofNat 8 (w / 2 ^ 16 % 256), BitVec.ofNat 8 (w / 2 ^ 8 % 256),
        BitVec.ofNat 8 (w % 256)] = w := by
    intro w hw
    simp only [beValue, List.foldl, BitVec.toNat_ofNat]
    omega
  cases ext
  · have e := hv (2 ^ 31 + id.toNat) (by omega)
    have m : (2147483648 + id.toNat) % 2147483648 = id.toNat := by omega
    simp only [encodeFrame, Bool.false_eq_true, if_false, List.cons_append, List.nil_append, decodeFrame, e]
    norm_num [m, hi, hd]
  · have e := hv (0 + id.toNat) (by omega)
    have m : id.toNat % 2147483648 = id.toNat := by omega
    simp only [encodeFrame, if_true, List.cons_append, List.nil_append, decodeFrame, e]
    norm_num [m, hi, hd]
    omega

/-- The value of a number's digits, least significant first, when there is room for all of them. -/
theorem foldr_digits256 (fuel t : Nat) (h : t ≤ fuel) :
    (digits256 fuel t).foldr (fun b v => 256 * v + b.toNat) 0 = t := by
  induction fuel generalizing t with
  | zero => simp [digits256]; omega
  | succ n ih =>
    unfold digits256
    split
    · simp_all
    · rename_i ht
      rw [List.foldr_cons, ih (t / 256) (by omega), BitVec.toNat_ofNat]
      omega

/-- A time read back, every natural number. -/
theorem beValue_encodeTime (t : Nat) : beValue (encodeTime t) = t := by
  unfold encodeTime
  split
  · subst_vars; rfl
  · rw [beValue, List.foldl_reverse]; exact foldr_digits256 t t (Nat.le_refl t)

/-- A time's operand is never empty. -/
theorem encodeTime_ne_nil (t : Nat) : encodeTime t ≠ [] := by
  unfold encodeTime
  split
  · simp
  · cases t with
    | zero => simp_all
    | succ n => simp [digits256]

end Sys2Proof
end

