-- ==== Sys2Proof/Laws/State.lean ====
section
/-! SUPPORT. Laws/State.lean: what each named update of the state does to each field. -/

namespace Sys2Proof.Machine

/-! ### `State.emit` -/

@[simp] theorem State.emit_cfg (s : State) (os : List Output) : (s.emit os).cfg = s.cfg := rfl
@[simp] theorem State.emit_reasm (s : State) (os : List Output) : (s.emit os).reasm = s.reasm := rfl
@[simp] theorem State.emit_cst (s : State) (os : List Output) : (s.emit os).cst = s.cst := rfl
@[simp] theorem State.emit_idx (s : State) (os : List Output) : (s.emit os).idx = s.idx := rfl
@[simp] theorem State.emit_roundOk (s : State) (os : List Output) : (s.emit os).roundOk = s.roundOk := rfl
@[simp] theorem State.emit_roundErr (s : State) (os : List Output) : (s.emit os).roundErr = s.roundErr := rfl
@[simp] theorem State.emit_pend (s : State) (os : List Output) : (s.emit os).pend = s.pend := rfl
@[simp] theorem State.emit_dash (s : State) (os : List Output) : (s.emit os).dash = s.dash := rfl
@[simp] theorem State.emit_run (s : State) (os : List Output) : (s.emit os).run = s.run := rfl
@[simp] theorem State.emit_snap (s : State) (os : List Output) : (s.emit os).snap = s.snap := rfl
@[simp] theorem State.emit_rst (s : State) (os : List Output) : (s.emit os).rst = s.rst := rfl
@[simp] theorem State.emit_conn (s : State) (os : List Output) : (s.emit os).conn = s.conn := rfl
@[simp] theorem State.emit_exit (s : State) (os : List Output) : (s.emit os).exit = s.exit := rfl
@[simp] theorem State.emit_fault (s : State) (os : List Output) : (s.emit os).fault = s.fault := rfl
@[simp] theorem State.emit_out (s : State) (os : List Output) : (s.emit os).out = s.out ++ os := rfl
@[simp] theorem State.emit_ret (s : State) (os : List Output) : (s.emit os).ret = s.ret := rfl
@[simp] theorem State.emit_trace (s : State) (os : List Output) : (s.emit os).trace = s.trace := rfl
@[simp] theorem State.emit_held (s : State) (os : List Output) : (s.emit os).held = s.held := rfl
@[simp] theorem State.emit_picks (s : State) (os : List Output) : (s.emit os).picks = s.picks := rfl

/-! ### `State.answer` -/

@[simp] theorem State.answer_cfg (s : State) (st : Status) (v : Option Value) : (s.answer st v).cfg = s.cfg := rfl
@[simp] theorem State.answer_reasm (s : State) (st : Status) (v : Option Value) : (s.answer st v).reasm = s.reasm := rfl
@[simp] theorem State.answer_cst (s : State) (st : Status) (v : Option Value) : (s.answer st v).cst = s.cst := rfl
@[simp] theorem State.answer_idx (s : State) (st : Status) (v : Option Value) : (s.answer st v).idx = s.idx := rfl
@[simp] theorem State.answer_roundOk (s : State) (st : Status) (v : Option Value) : (s.answer st v).roundOk = s.roundOk := rfl
@[simp] theorem State.answer_roundErr (s : State) (st : Status) (v : Option Value) : (s.answer st v).roundErr = s.roundErr := rfl
@[simp] theorem State.answer_pend (s : State) (st : Status) (v : Option Value) : (s.answer st v).pend = s.pend := rfl
@[simp] theorem State.answer_dash (s : State) (st : Status) (v : Option Value) : (s.answer st v).dash = s.dash := rfl
@[simp] theorem State.answer_run (s : State) (st : Status) (v : Option Value) : (s.answer st v).run = s.run := rfl
@[simp] theorem State.answer_snap (s : State) (st : Status) (v : Option Value) : (s.answer st v).snap = s.snap := rfl
@[simp] theorem State.answer_rst (s : State) (st : Status) (v : Option Value) : (s.answer st v).rst = s.rst := rfl
@[simp] theorem State.answer_conn (s : State) (st : Status) (v : Option Value) : (s.answer st v).conn = s.conn := rfl
@[simp] theorem State.answer_exit (s : State) (st : Status) (v : Option Value) : (s.answer st v).exit = s.exit := rfl
@[simp] theorem State.answer_fault (s : State) (st : Status) (v : Option Value) : (s.answer st v).fault = s.fault := rfl
@[simp] theorem State.answer_out (s : State) (st : Status) (v : Option Value) : (s.answer st v).out = s.out := rfl
@[simp] theorem State.answer_ret (s : State) (st : Status) (v : Option Value) : (s.answer st v).ret = some { status := st, value := v } := rfl
@[simp] theorem State.answer_trace (s : State) (st : Status) (v : Option Value) : (s.answer st v).trace = s.trace := rfl
@[simp] theorem State.answer_held (s : State) (st : Status) (v : Option Value) : (s.answer st v).held = s.held := rfl
@[simp] theorem State.answer_picks (s : State) (st : Status) (v : Option Value) : (s.answer st v).picks = s.picks := rfl

/-! ### `State.absorb` -/

@[simp] theorem State.absorb_cfg (s : State) (r : Reassembled) : (s.absorb r).cfg = s.cfg := rfl
@[simp] theorem State.absorb_reasm (s : State) (r : Reassembled) : (s.absorb r).reasm = r.table := rfl
@[simp] theorem State.absorb_cst (s : State) (r : Reassembled) : (s.absorb r).cst = s.cst := rfl
@[simp] theorem State.absorb_idx (s : State) (r : Reassembled) : (s.absorb r).idx = s.idx := rfl
@[simp] theorem State.absorb_roundOk (s : State) (r : Reassembled) : (s.absorb r).roundOk = s.roundOk := rfl
@[simp] theorem State.absorb_roundErr (s : State) (r : Reassembled) : (s.absorb r).roundErr = s.roundErr := rfl
@[simp] theorem State.absorb_pend (s : State) (r : Reassembled) : (s.absorb r).pend = s.pend := rfl
@[simp] theorem State.absorb_dash (s : State) (r : Reassembled) : (s.absorb r).dash = s.dash := rfl
@[simp] theorem State.absorb_run (s : State) (r : Reassembled) : (s.absorb r).run = s.run := rfl
@[simp] theorem State.absorb_snap (s : State) (r : Reassembled) : (s.absorb r).snap = s.snap := rfl
@[simp] theorem State.absorb_rst (s : State) (r : Reassembled) : (s.absorb r).rst = s.rst := rfl
@[simp] theorem State.absorb_conn (s : State) (r : Reassembled) : (s.absorb r).conn = s.conn := rfl
@[simp] theorem State.absorb_exit (s : State) (r : Reassembled) : (s.absorb r).exit = s.exit := rfl
@[simp] theorem State.absorb_fault (s : State) (r : Reassembled) : (s.absorb r).fault = s.fault := rfl
@[simp] theorem State.absorb_out (s : State) (r : Reassembled) : (s.absorb r).out = s.out ++ eventOf r.status := rfl
@[simp] theorem State.absorb_ret (s : State) (r : Reassembled) : (s.absorb r).ret = s.ret := rfl
@[simp] theorem State.absorb_trace (s : State) (r : Reassembled) : (s.absorb r).trace = s.trace := rfl
@[simp] theorem State.absorb_held (s : State) (r : Reassembled) : (s.absorb r).held = s.held := rfl
@[simp] theorem State.absorb_picks (s : State) (r : Reassembled) : (s.absorb r).picks = s.picks := rfl

/-! ### `State.abortRound` -/

@[simp] theorem State.abortRound_cfg (s : State) : (s.abortRound).cfg = s.cfg := rfl
@[simp] theorem State.abortRound_reasm (s : State) : (s.abortRound).reasm = s.reasm := rfl
@[simp] theorem State.abortRound_cst (s : State) : (s.abortRound).cst = .cEnd := rfl
@[simp] theorem State.abortRound_idx (s : State) : (s.abortRound).idx = s.idx := rfl
@[simp] theorem State.abortRound_roundOk (s : State) : (s.abortRound).roundOk = s.roundOk := rfl
@[simp] theorem State.abortRound_roundErr (s : State) : (s.abortRound).roundErr = true := rfl
@[simp] theorem State.abortRound_pend (s : State) : (s.abortRound).pend = s.pend := rfl
@[simp] theorem State.abortRound_dash (s : State) : (s.abortRound).dash = s.dash := rfl
@[simp] theorem State.abortRound_run (s : State) : (s.abortRound).run = s.run := rfl
@[simp] theorem State.abortRound_snap (s : State) : (s.abortRound).snap = s.snap := rfl
@[simp] theorem State.abortRound_rst (s : State) : (s.abortRound).rst = s.rst := rfl
@[simp] theorem State.abortRound_conn (s : State) : (s.abortRound).conn = s.conn := rfl
@[simp] theorem State.abortRound_exit (s : State) : (s.abortRound).exit = s.exit := rfl
@[simp] theorem State.abortRound_fault (s : State) : (s.abortRound).fault = s.fault := rfl
@[simp] theorem State.abortRound_out (s : State) : (s.abortRound).out = s.out ++ [.pollDone s.polled .transportError none] := rfl
@[simp] theorem State.abortRound_ret (s : State) : (s.abortRound).ret = some { status := .transportError, value := none } := rfl
@[simp] theorem State.abortRound_trace (s : State) : (s.abortRound).trace = s.trace := rfl
@[simp] theorem State.abortRound_held (s : State) : (s.abortRound).held = s.held := rfl
@[simp] theorem State.abortRound_picks (s : State) : (s.abortRound).picks = s.picks := rfl

/-! ### `State.pollSucceeds` -/

@[simp] theorem State.pollSucceeds_cfg (s : State) (r : Reading) : (s.pollSucceeds r).cfg = s.cfg := rfl
@[simp] theorem State.pollSucceeds_reasm (s : State) (r : Reading) : (s.pollSucceeds r).reasm = s.reasm := rfl
@[simp] theorem State.pollSucceeds_cst (s : State) (r : Reading) : (s.pollSucceeds r).cst = .cPub := rfl
@[simp] theorem State.pollSucceeds_idx (s : State) (r : Reading) : (s.pollSucceeds r).idx = s.idx := rfl
@[simp] theorem State.pollSucceeds_roundOk (s : State) (r : Reading) : (s.pollSucceeds r).roundOk = s.roundOk := rfl
@[simp] theorem State.pollSucceeds_roundErr (s : State) (r : Reading) : (s.pollSucceeds r).roundErr = s.roundErr := rfl
@[simp] theorem State.pollSucceeds_pend (s : State) (r : Reading) : (s.pollSucceeds r).pend = some r := rfl
@[simp] theorem State.pollSucceeds_dash (s : State) (r : Reading) : (s.pollSucceeds r).dash = s.dash := rfl
@[simp] theorem State.pollSucceeds_run (s : State) (r : Reading) : (s.pollSucceeds r).run = s.run := rfl
@[simp] theorem State.pollSucceeds_snap (s : State) (r : Reading) : (s.pollSucceeds r).snap = s.snap := rfl
@[simp] theorem State.pollSucceeds_rst (s : State) (r : Reading) : (s.pollSucceeds r).rst = s.rst := rfl
@[simp] theorem State.pollSucceeds_conn (s : State) (r : Reading) : (s.pollSucceeds r).conn = s.conn := rfl
@[simp] theorem State.pollSucceeds_exit (s : State) (r : Reading) : (s.pollSucceeds r).exit = s.exit := rfl
@[simp] theorem State.pollSucceeds_fault (s : State) (r : Reading) : (s.pollSucceeds r).fault = s.fault := rfl
@[simp] theorem State.pollSucceeds_out (s : State) (r : Reading) : (s.pollSucceeds r).out = s.out ++ [.pollDone s.polled .ok (some r)] := rfl
@[simp] theorem State.pollSucceeds_ret (s : State) (r : Reading) : (s.pollSucceeds r).ret = some { status := .ok, value := some (.reading r) } := rfl
@[simp] theorem State.pollSucceeds_trace (s : State) (r : Reading) : (s.pollSucceeds r).trace = s.trace := rfl
@[simp] theorem State.pollSucceeds_held (s : State) (r : Reading) : (s.pollSucceeds r).held = s.held := rfl
@[simp] theorem State.pollSucceeds_picks (s : State) (r : Reading) : (s.pollSucceeds r).picks = s.picks := rfl

/-! ### `State.keepFrame` (R210) -/

@[simp] theorem State.keepFrame_cfg (s : State) (f : Frame) : (s.keepFrame f).cfg = s.cfg := rfl
@[simp] theorem State.keepFrame_reasm (s : State) (f : Frame) : (s.keepFrame f).reasm = s.reasm := rfl
@[simp] theorem State.keepFrame_cst (s : State) (f : Frame) : (s.keepFrame f).cst = s.cst := rfl
@[simp] theorem State.keepFrame_idx (s : State) (f : Frame) : (s.keepFrame f).idx = s.idx := rfl
@[simp] theorem State.keepFrame_roundOk (s : State) (f : Frame) : (s.keepFrame f).roundOk = s.roundOk := rfl
@[simp] theorem State.keepFrame_roundErr (s : State) (f : Frame) : (s.keepFrame f).roundErr = s.roundErr := rfl
@[simp] theorem State.keepFrame_pend (s : State) (f : Frame) : (s.keepFrame f).pend = s.pend := rfl
@[simp] theorem State.keepFrame_dash (s : State) (f : Frame) : (s.keepFrame f).dash = s.dash := rfl
@[simp] theorem State.keepFrame_run (s : State) (f : Frame) : (s.keepFrame f).run = s.run := rfl
@[simp] theorem State.keepFrame_snap (s : State) (f : Frame) : (s.keepFrame f).snap = s.snap := rfl
@[simp] theorem State.keepFrame_rst (s : State) (f : Frame) : (s.keepFrame f).rst = s.rst := rfl
@[simp] theorem State.keepFrame_conn (s : State) (f : Frame) : (s.keepFrame f).conn = s.conn := rfl
@[simp] theorem State.keepFrame_exit (s : State) (f : Frame) : (s.keepFrame f).exit = s.exit := rfl
@[simp] theorem State.keepFrame_fault (s : State) (f : Frame) : (s.keepFrame f).fault = s.fault := rfl
@[simp] theorem State.keepFrame_out (s : State) (f : Frame) : (s.keepFrame f).out = s.out := rfl
@[simp] theorem State.keepFrame_ret (s : State) (f : Frame) : (s.keepFrame f).ret = s.ret := rfl
@[simp] theorem State.keepFrame_trace (s : State) (f : Frame) : (s.keepFrame f).trace = s.trace := rfl
@[simp] theorem State.keepFrame_picks (s : State) (f : Frame) : (s.keepFrame f).picks = s.picks := rfl
@[simp] theorem State.keepFrame_held (s : State) (f : Frame) : (s.keepFrame f).held = s.held ++ [f] := rfl

/-! ### `State.nextPoll` (R175) -/

@[simp] theorem State.nextPoll_cfg (s : State) : s.nextPoll.cfg = s.cfg := by unfold State.nextPoll; split <;> rfl
@[simp] theorem State.nextPoll_reasm (s : State) : s.nextPoll.reasm = s.reasm := by unfold State.nextPoll; split <;> rfl
@[simp] theorem State.nextPoll_roundOk (s : State) : s.nextPoll.roundOk = s.roundOk := by unfold State.nextPoll; split <;> rfl
@[simp] theorem State.nextPoll_roundErr (s : State) : s.nextPoll.roundErr = s.roundErr := by unfold State.nextPoll; split <;> rfl
@[simp] theorem State.nextPoll_pend (s : State) : s.nextPoll.pend = s.pend := by unfold State.nextPoll; split <;> rfl
@[simp] theorem State.nextPoll_dash (s : State) : s.nextPoll.dash = s.dash := by unfold State.nextPoll; split <;> rfl
@[simp] theorem State.nextPoll_run (s : State) : s.nextPoll.run = s.run := by unfold State.nextPoll; split <;> rfl
@[simp] theorem State.nextPoll_snap (s : State) : s.nextPoll.snap = s.snap := by unfold State.nextPoll; split <;> rfl
@[simp] theorem State.nextPoll_rst (s : State) : s.nextPoll.rst = s.rst := by unfold State.nextPoll; split <;> rfl
@[simp] theorem State.nextPoll_conn (s : State) : s.nextPoll.conn = s.conn := by unfold State.nextPoll; split <;> rfl
@[simp] theorem State.nextPoll_exit (s : State) : s.nextPoll.exit = s.exit := by unfold State.nextPoll; split <;> rfl
@[simp] theorem State.nextPoll_fault (s : State) : s.nextPoll.fault = s.fault := by unfold State.nextPoll; split <;> rfl
@[simp] theorem State.nextPoll_out (s : State) : s.nextPoll.out = s.out := by unfold State.nextPoll; split <;> rfl
@[simp] theorem State.nextPoll_ret (s : State) : s.nextPoll.ret = s.ret := by unfold State.nextPoll; split <;> rfl
@[simp] theorem State.nextPoll_trace (s : State) : s.nextPoll.trace = s.trace := by unfold State.nextPoll; split <;> rfl
@[simp] theorem State.nextPoll_held (s : State) : s.nextPoll.held = s.held := by unfold State.nextPoll; split <;> rfl
@[simp] theorem State.nextPoll_picks (s : State) : s.nextPoll.picks = s.picks := by unfold State.nextPoll; split <;> rfl

/-- Before the last sensor of the round the next one is polled. -/
theorem State.nextPoll_more {s : State} (h : s.idx.val < 3) : s.nextPoll = { s with idx := s.idx + 1, cst := .cIssue } :=
  if_pos h

/-- After the last sensor of the round the round ends. -/
theorem State.nextPoll_last {s : State} (h : ¬s.idx.val < 3) : s.nextPoll = { s with cst := .cEnd } := if_neg h

/-- `next_poll()` leads to `C_ISSUE` or `C_END`, and to nothing else. -/
theorem State.nextPoll_cst (s : State) : s.nextPoll.cst = .cIssue ∨ s.nextPoll.cst = .cEnd := by
  unfold State.nextPoll; split <;> simp

/-! ### The record -/

@[simp] theorem setGroup_succ (d : Dash) (k : Sensor) (r : Reading) : (setGroup d k r).succ = d.succ := by cases k <;> rfl
@[simp] theorem setGroup_err (d : Dash) (k : Sensor) (r : Reading) : (setGroup d k r).err = d.err := by cases k <;> rfl
@[simp] theorem setGroup_last (d : Dash) (k : Sensor) (r : Reading) : (setGroup d k r).last = d.last := by cases k <;> rfl

/-- A group written is that group, and every other group is as it was (R33). -/
theorem groupOf_setGroup (d : Dash) (k k' : Sensor) (r : Reading) :
    groupOf (setGroup d k r) k' = if k' = k then some r else groupOf d k' := by
  cases k <;> cases k' <;> rfl

@[simp] theorem groupOf_publish (d : Dash) (r : Reading) (t : Nat) (k : Sensor) :
    groupOf (d.publish r t) k = groupOf (setGroup d (kindOf r) r) k := by cases k <;> rfl
@[simp] theorem Dash.publish_succ (d : Dash) (r : Reading) (t : Nat) : (d.publish r t).succ = d.succ + 1 := rfl
@[simp] theorem Dash.publish_err (d : Dash) (r : Reading) (t : Nat) : (d.publish r t).err = d.err := by
  simp [Dash.publish]
@[simp] theorem Dash.publish_last (d : Dash) (r : Reading) (t : Nat) :
    (d.publish r t).last = some (BitVec.ofNat 64 t) := rfl

@[simp] theorem groupOf_countError (d : Dash) (k : Sensor) : groupOf d.countError k = groupOf d k := by cases k <;> rfl
@[simp] theorem Dash.countError_succ (d : Dash) : d.countError.succ = d.succ := rfl
@[simp] theorem Dash.countError_err (d : Dash) : d.countError.err = d.err + 1 := rfl
@[simp] theorem Dash.countError_last (d : Dash) : d.countError.last = d.last := rfl

/-- A round's end writes the error count and nothing else of the record (R176). -/
theorem State.roundEndDash_cases (s : State) : s.roundEndDash = s.dash.countError ∨ s.roundEndDash = s.dash := by
  unfold State.roundEndDash; split
  · exact .inl rfl
  · exact .inr rfl

end Sys2Proof.Machine
end

