-- ==== Sys2Proof/Laws/Table.lean ====
section
/-! SUPPORT. Laws/Table.lean: the reassembly table: reading after writing, other keys left alone (R117), and the
canonical form kept by every operation. -/

namespace Sys2Proof.Machine

@[simp] theorem lookupBuf_openBuf_same (k : Ident) (b : List Byte) (t : Table) : lookupBuf k (openBuf k b t) = some b := by
  induction t with
  | nil => simp [openBuf, lookupBuf]
  | cons e t ih =>
    unfold openBuf
    split
    · simp [lookupBuf]
    · split
      · simp [lookupBuf]
      · rename_i h _; simp [lookupBuf, h, ih]

theorem lookupBuf_openBuf_other {k k' : Ident} (h : k' ≠ k) (b : List Byte) (t : Table) :
    lookupBuf k' (openBuf k b t) = lookupBuf k' t := by
  induction t with
  | nil => simp [openBuf, lookupBuf, h.symm]
  | cons e t ih =>
    unfold openBuf
    split
    · rename_i he; simp [lookupBuf, he, h.symm]
    · split
      · simp [lookupBuf, h.symm]
      · simp [lookupBuf, ih]

@[simp] theorem lookupBuf_closeBuf_same (k : Ident) (t : Table) : lookupBuf k (closeBuf k t) = none := by
  induction t with
  | nil => rfl
  | cons e t ih =>
    unfold closeBuf
    split
    · exact ih
    · rename_i h; simp [lookupBuf, h, ih]

theorem lookupBuf_closeBuf_other {k k' : Ident} (h : k' ≠ k) (t : Table) :
    lookupBuf k' (closeBuf k t) = lookupBuf k' t := by
  induction t with
  | nil => rfl
  | cons e t ih =>
    unfold closeBuf
    split
    · rename_i he; simp [lookupBuf, he, h.symm, ih]
    · simp [lookupBuf, ih]

/-- Every key of `openBuf k b t` is `k` or a key of `t`. -/
theorem key_of_mem_openBuf {k : Ident} {b : List Byte} {t : Table} {e : Ident × List Byte} (h : e ∈ openBuf k b t) :
    e.1 = k ∨ e ∈ t := by
  induction t with
  | nil => simp [openBuf] at h; simp [h]
  | cons e' t ih =>
    unfold openBuf at h
    split at h
    · rcases List.mem_cons.mp h with rfl | h
      · exact .inl rfl
      · exact .inr (List.mem_cons_of_mem _ h)
    · split at h
      · rcases List.mem_cons.mp h with rfl | h
        · exact .inl rfl
        · exact .inr h
      · rcases List.mem_cons.mp h with rfl | h
        · exact .inr List.mem_cons_self
        · exact (ih h).imp id (List.mem_cons_of_mem _)

/-- Opening a buffer keeps the canonical form. -/
theorem openBuf_wf {t : Table} (k : Ident) (b : List Byte) (h : Table.wf t) : Table.wf (openBuf k b t) := by
  induction t with
  | nil => simp [openBuf, Table.wf]
  | cons e t ih =>
    obtain ⟨hlt, ht⟩ := List.pairwise_cons.mp h
    unfold openBuf
    split
    · rename_i he; subst he; exact List.pairwise_cons.mpr ⟨hlt, ht⟩
    · split
      · rename_i hk
        refine List.pairwise_cons.mpr ⟨fun x hx => ?_, h⟩
        rcases List.mem_cons.mp hx with rfl | hx
        · exact hk
        · exact Nat.lt_trans hk (hlt x hx)
      · rename_i hne hk
        refine List.pairwise_cons.mpr ⟨fun x hx => ?_, ih ht⟩
        rcases key_of_mem_openBuf hx with hx | hx
        · have hn : e.1.toNat ≠ k.toNat := fun hq => hne (BitVec.eq_of_toNat_eq hq)
          simp only [hx]; omega
        · exact hlt x hx

/-- Every entry of `closeBuf k t` is an entry of `t`. -/
theorem closeBuf_sublist (k : Ident) (t : Table) : (closeBuf k t).Sublist t := by
  induction t with
  | nil => exact List.Sublist.refl _
  | cons e t ih =>
    unfold closeBuf
    split
    · exact ih.cons _
    · exact ih.cons_cons _

/-- Closing a buffer keeps the canonical form. -/
theorem closeBuf_wf {t : Table} (k : Ident) (h : Table.wf t) : Table.wf (closeBuf k t) :=
  List.Pairwise.sublist (closeBuf_sublist k t) h

end Sys2Proof.Machine
end

