-- ==== Sys2Proof/Laws/Ops.lean ====
section
/-! SUPPORT. Laws/Ops.lean: one lemma per shared operation that says once everything it can do. -/

namespace Sys2Proof.Machine

/-! ### The encoder -/

/-- A sensor's own select code names it (R85). -/
@[simp] theorem sensorOf_selOf (k : Sensor) : sensorOf (selOf k) = some k := by cases k <;> rfl

/-- The encoder never meets an unknown sensor inside the block (R151, R172). -/
theorem enc_selOf (k : Sensor) : enc (selOf k) = (some (requestFrame k), .ok) := by simp [enc]

/-- Select codes 4 to 7 name no sensor (R85). -/
theorem sensorOf_eq_none_iff (sel : Sel) : sensorOf sel = none ↔ 4 ≤ sel.toNat := by revert sel; decide

/-! ### The reassembler -/

/-- What `REASM f` can do: R111, R112, R113, R114, R115 or R116, with the conditions of each (R110). -/
theorem reassemble_cases (t : Table) (f : Frame) :
    (f.data = [] ∧ reassemble t f = reassembleEmpty t) ∨
    (frameStart f = true ∧ frameEnd f = false ∧ reassemble t f = reassembleStart t f) ∨
    (frameStart f = true ∧ frameEnd f = true ∧ reassemble t f = reassembleSingle t f) ∨
    (f.data ≠ [] ∧ frameStart f = false ∧ lookupBuf f.id t = none ∧ reassemble t f = reassembleViolation t) ∨
    (∃ b, f.data ≠ [] ∧ frameStart f = false ∧ frameEnd f = false ∧ lookupBuf f.id t = some b ∧
      reassemble t f = { table := openBuf f.id (b ++ contribution f) t, payload := none, status := .ok }) ∨
    (∃ b, f.data ≠ [] ∧ frameStart f = false ∧ frameEnd f = true ∧ lookupBuf f.id t = some b ∧
      reassemble t f = { table := closeBuf f.id t, payload := some (b ++ contribution f), status := .ok }) := by
  cases hd : f.data with
  | nil => simp [reassemble, hd]
  | cons h tl =>
    cases hs : hdrStart h <;> cases he : hdrEnd h <;> cases hl : lookupBuf f.id t <;>
      simp [reassemble, frameStart, frameEnd, hd, hs, he, hl, reassembleCont, reassembleEnd]

/-- A reassembler step leaves every other key alone (R117). -/
theorem reassemble_other_key {t : Table} {f : Frame} {k : Ident} (h : k ≠ f.id) :
    lookupBuf k (reassemble t f).table = lookupBuf k t := by
  rcases reassemble_cases t f with ⟨-, e⟩ | ⟨-, -, e⟩ | ⟨-, -, e⟩ | ⟨-, -, -, e⟩ | ⟨b, -, -, -, -, e⟩ | ⟨b, -, -, -, -, e⟩ <;>
    simp [e, reassembleEmpty, reassembleStart, reassembleSingle, reassembleViolation, lookupBuf_openBuf_other h,
      lookupBuf_closeBuf_other h]

/-- A reassembler step keeps the table's canonical form. -/
theorem reassemble_wf {t : Table} (f : Frame) (h : Table.wf t) : Table.wf (reassemble t f).table := by
  rcases reassemble_cases t f with ⟨-, e⟩ | ⟨-, -, e⟩ | ⟨-, -, e⟩ | ⟨-, -, -, e⟩ | ⟨b, -, -, -, -, e⟩ | ⟨b, -, -, -, -, e⟩ <;>
    rw [e]
  · exact h
  · exact openBuf_wf _ _ h
  · exact closeBuf_wf _ h
  · exact h
  · exact openBuf_wf _ _ h
  · exact closeBuf_wf _ h

/-- The slice of R114 in the form the proofs use: `LEN` bytes after the header, as far as the frame has them. -/
theorem contribution_cons {f : Frame} {h : Byte} {tl : List Byte} (hd : f.data = h :: tl) :
    contribution f = tl.take (h.toNat % 16) := by
  simp only [contribution, hd, slice, hdrLen, List.drop_one, List.tail_cons, List.length_cons]
  rcases Nat.le_total (h.toNat % 16) tl.length with hle | hle
  · congr 1; omega
  · rw [List.take_of_length_le hle, List.take_of_length_le]; omega

/-! ### The decoder -/

theorem sext_range {n v : Nat} (hn : 0 < n) (hv : v < 2 ^ n) : -(2 ^ (n - 1) : Nat) ≤ sext n v ∧ sext n v < (2 ^ (n - 1) : Nat) := by
  obtain ⟨m, rfl⟩ : ∃ m, n = m + 1 := ⟨n - 1, by omega⟩
  simp only [Nat.add_sub_cancel, sext]
  have hp : 2 ^ (m + 1) = 2 * 2 ^ m := by rw [Nat.pow_succ]; omega
  split <;> omega

theorem be16_lt (rd : Nat → Byte) (i : Nat) : be16 rd i < 65536 := by
  have h1 := (rd i).isLt; have h2 := (rd (i + 1)).isLt; unfold be16; omega

/-- What `DEC` can answer: a reading with status `OK`, or none with a reason that is not `OK` (R130). -/
theorem decView_cases (cfg : Config) (n : Nat) (rd : Nat → Byte) :
    (∃ r, decView cfg n rd = (some r, .ok) ∧ readingInRange r = true) ∨
    decView cfg n rd = (none, .decodeTooShort) ∨ decView cfg n rd = (none, .unknownOperation) := by
  unfold decView
  split
  · simp
  · have s16 := fun i => sext_range (n := 16) (by omega) (be16_lt rd i)
    have s8 := sext_range (n := 8) (by omega) (rd 5).isLt
    have b8 := (rd 5).isLt
    have b16 := be16_lt rd
    split <;> simp only [parsePump, parsePres, parseTemp, parseWheel] <;> try split
    all_goals first
      | exact .inr (.inl rfl)
      | exact .inr (.inr trivial)
      | refine .inl ⟨_, rfl, ?_⟩
        simp only [readingInRange, decide_eq_true_eq]
    · have := s16 5; have := s16 7; norm_num at *; omega
    · omega
    · norm_num at *; omega
    · have := b16 6; have := b16 8; have := b16 10; have := b16 12; omega

/-! ### A response frame during a poll -/

/-- What a payload completed during a poll leads to (R153, R155): absorbed, accepted, or discarded. -/
theorem takePayload_cases (s : State) (p : Payload) :
    (∃ st, dec s.cfg p = (none, st) ∧ st ≠ .ok ∧ s.takePayload p = s.answer st none) ∨
    (∃ r, dec s.cfg p = (some r, .ok) ∧ readingInRange r = true ∧ s.accepts r = true ∧ s.takePayload p = s.pollSucceeds r) ∨
    (∃ r, dec s.cfg p = (some r, .ok) ∧ s.accepts r = false ∧
      s.takePayload p = (s.emit [.evt .kindMismatch]).answer .kindMismatch none) := by
  rcases decView_cases s.cfg p.length (byteAt p) with ⟨r, h, hr⟩ | h | h
  · cases ha : s.accepts r
    · exact .inr (.inr ⟨r, h, ha, by simp [State.takePayload, dec, h, ha, eventOf, isEvent]⟩)
    · exact .inr (.inl ⟨r, h, hr, ha, by simp [State.takePayload, dec, h, ha]⟩)
  · exact .inl ⟨_, h, by simp, by simp [State.takePayload, dec, h]⟩
  · exact .inl ⟨_, h, by simp, by simp [State.takePayload, dec, h]⟩

/-- What a response frame leads to during a poll (R153): no payload, or a payload taken. -/
theorem takeFrame_cases (s : State) (f : Frame) :
    ((reassemble s.reasm f).payload = none ∧
      s.takeFrame f = (s.absorb (reassemble s.reasm f)).answer (reassemble s.reasm f).status none) ∨
    (∃ p, (reassemble s.reasm f).payload = some p ∧
      s.takeFrame f = (s.absorb (reassemble s.reasm f)).takePayload p) := by
  cases h : (reassemble s.reasm f).payload with
  | none => exact .inl ⟨rfl, by simp [State.takeFrame, h]⟩
  | some p => exact .inr ⟨p, rfl, by simp [State.takeFrame, h]⟩

end Sys2Proof.Machine
end

