-- ==== Sys2Proof/Laws/Exec.lean ====
section
/-! SUPPORT. Laws/Exec.lean: what each instruction can do, said once: every meaning answers a next state, and that
state is one of the named results below, with the condition each needs. -/

namespace Sys2Proof.Machine

/-- No meaning stops: a step performs its rule or, not being enabled, does nothing (R212). -/
theorem exec_answers_next (i : Instr) (s : State) : ∃ t, exec i s = .next t := by
  cases i <;>
    simp only [exec, execEncPump, execEncPres, execEncTemp, execEncWheel, execEncUnknown, execReasmEmpty, execReasmSingle,
      execReasmStart, execReasmCont, execReasmEnd, execReasmViolation, execDecShort, execDecPump, execDecPres, execDecTemp,
      execDecWheel, execDecUnknown, execStepStart, execStepConnfail, execStepTop, execStepIssue, execStepRx, execStepTmo,
      execStepRxerr, execStepPub, execStepEnd, execStepSnap, execStepStop, execStepShutdown, execStepEnc, execStepReasm,
      execStepDec] <;>
    (repeat' split) <;> exact ⟨_, rfl⟩

/-- The result of a REASM row run as the row its frame is (R111 to R116): the reassembler step of R110, whatever the
row. -/
theorem exec_reasm_row {cfg : Config} {s : State} {i : Instr} {f : Frame} (hw : i.wf cfg = true) (hp : presented i = some f)
    (hx : ∀ f, i ≠ .stepRx f) : exec i s = .next (s.reasmReport (reassemble s.reasm f)) := by
  cases i <;> simp only [presented, Option.some.injEq, reduceCtorEq] at hp <;> subst hp <;>
    simp only [Instr.wf, Bool.and_eq_true, Bool.or_eq_true, decide_eq_true_eq] at hw
  case reasmEmpty f => simp [exec, execReasmEmpty, reassemble, hw]
  case reasmSingle f =>
    cases hd : f.data <;> simp_all [Frame.headerIs, exec, execReasmSingle, reassemble]
  case reasmStart f =>
    cases hd : f.data <;> simp_all [Frame.headerIs, exec, execReasmStart, reassemble]
  case reasmCont f =>
    cases hd : f.data <;> simp_all [Frame.headerIs, exec, execReasmCont, reassemble]
  case reasmEnd f =>
    cases hd : f.data <;> simp_all [Frame.headerIs, exec, execReasmEnd, reassemble]
  case reasmViolation f =>
    cases hl : lookupBuf f.id s.reasm with
    | some b => simp [exec, execReasmViolation, hl]
    | none =>
      cases hd : f.data with
      | nil => simp [Frame.headerIs, hd] at hw
      | cons h tl =>
        have hs : hdrStart h = false := by
          rcases hw.2 with hw | hw <;> simp [Frame.headerIs, hd] at hw <;> exact hw.1
        simp [exec, execReasmViolation, hl, reassemble, hd, hs, reassembleEnd, reassembleCont]
  case stepReasm f => rfl
  case stepRx f => exact absurd rfl (hx f)

/-- What an instruction can do: nothing; a report alone; a frame kept; a reassembler step (that of its frame, for a well-formed
instruction); or one of the agents' and the host's steps, each with its enabling condition and its whole result. -/
theorem exec_cases {s t : State} {i : Instr} (h : exec i s = .next t) :
    t = s ∨
    (∃ st v, t = s.answer st v) ∨
    (∃ f r, presented i = some f ∧ (∀ f, i ≠ .stepRx f) ∧ t = s.reasmReport r ∧
      (i.wf s.cfg = true → r = reassemble s.reasm f)) ∨
    (i = .stepStart ∧ s.conn = .connNone ∧ s.exit = none ∧
      t = { s with conn := .connUp, run := true, cst := .cTop, rst := .rTop }.answer .ok none) ∨
    (i = .stepConnfail ∧ s.conn = .connNone ∧ s.exit = none ∧
      t = ({ s with exit := some .exitFail }.emit [.exitOut .exitFail]).answer .ok none) ∨
    (i = .stepTop ∧ s.cst = .cTop ∧ s.run = true ∧ t =
      { s with idx := 0, roundOk := false, roundErr := false, pend := none, cst := .cIssue }.answer .ok none) ∨
    (i = .stepTop ∧ s.cst = .cTop ∧ s.run = false ∧ t = { s with cst := .cExit }.answer .ok none) ∨
    (i = .stepIssue true ∧ s.cst = .cIssue ∧
      t = { s.emit [.tx (requestFrame s.polled)] with cst := .cWait }.answer .ok none) ∨
    (i = .stepIssue false ∧ s.cst = .cIssue ∧ t = (s.emit [.tx (requestFrame s.polled)]).abortRound) ∨
    ((∃ ok, i = .stepIssue ok) ∧ s.cst = .cWait ∧ t = { s with fault := some .pollBusy }) ∨
    (∃ f, i = .stepRx f ∧ s.cst = .cWait ∧ isResponse f = true ∧ t = s.takeFrame f) ∨
    (i = .stepTmo ∧ s.cst = .cWait ∧
      t = ((s.emit [.pollDone s.polled .timeout none]).answer .timeout none).nextPoll) ∨
    (i = .stepRxerr ∧ s.cst = .cWait ∧ t = s.abortRound) ∨
    (∃ n r, i = .stepPub n ∧ s.cst = .cPub ∧ s.pend = some r ∧
      t = ({ s with dash := s.dash.publish r n, roundOk := true, pend := none }.answer .ok none).nextPoll) ∨
    (i = .stepEnd ∧ s.cst = .cEnd ∧ t = { s with dash := s.roundEndDash, cst := .cTop }.answer .ok none) ∨
    (i = .stepSnap ∧ s.rst = .rTop ∧ s.run = true ∧
      t = ({ s with snap := some s.dash, rst := .rTop }.emit [.snapOut s.dash]).answer .ok none) ∨
    (i = .stepSnap ∧ s.rst = .rTop ∧ s.run = false ∧ t = { s with rst := .rExit }.answer .ok none) ∨
    (i = .stepStop ∧ s.conn = .connUp ∧ t = { s with run := false }.answer .ok none) ∨
    (i = .stepShutdown ∧ s.cst = .cExit ∧ s.rst = .rExit ∧ s.conn = .connUp ∧
      t = ({ s with conn := .connDown, exit := some .exitOk }.emit [.disconnect, .exitOut .exitOk]).answer .ok none) ∨
    (∃ f, i = .stepRx f ∧ s.cst ≠ .cWait ∧ t = s.keepFrame f) := by
  have row : ∀ f, presented i = some f → (∀ f, i ≠ .stepRx f) →
      (∃ r, t = s.reasmReport r) → ∃ r, t = s.reasmReport r ∧ (i.wf s.cfg = true → r = reassemble s.reasm f) := by
    intro f hp hx ⟨r, hr⟩
    by_cases hw : i.wf s.cfg = true
    · exact ⟨_, (Host.Outcome.next.inj ((exec_reasm_row hw hp hx).symm.trans h)).symm, fun _ => rfl⟩
    · exact ⟨r, hr, fun h => absurd h hw⟩
  cases i
  case reasmEmpty f =>
    obtain ⟨r, hr⟩ := row f rfl (by simp) ⟨_, (Host.Outcome.next.inj h).symm⟩
    exact .inr (.inr (.inl ⟨f, r, rfl, by simp, hr⟩))
  case reasmSingle f =>
    obtain ⟨r, hr⟩ := row f rfl (by simp) ⟨_, (Host.Outcome.next.inj h).symm⟩
    exact .inr (.inr (.inl ⟨f, r, rfl, by simp, hr⟩))
  case reasmStart f =>
    obtain ⟨r, hr⟩ := row f rfl (by simp) ⟨_, (Host.Outcome.next.inj h).symm⟩
    exact .inr (.inr (.inl ⟨f, r, rfl, by simp, hr⟩))
  case reasmCont f =>
    obtain ⟨r, hr⟩ := row f rfl (by simp) ⟨_, (Host.Outcome.next.inj h).symm⟩
    exact .inr (.inr (.inl ⟨f, r, rfl, by simp, hr⟩))
  case reasmEnd f =>
    obtain ⟨r, hr⟩ := row f rfl (by simp) ⟨_, (Host.Outcome.next.inj h).symm⟩
    exact .inr (.inr (.inl ⟨f, r, rfl, by simp, hr⟩))
  case reasmViolation f =>
    obtain ⟨r, hr⟩ := row f rfl (by simp) (by
      simp only [exec, execReasmViolation] at h
      split at h <;> exact ⟨_, (Host.Outcome.next.inj h).symm⟩)
    exact .inr (.inr (.inl ⟨f, r, rfl, by simp, hr⟩))
  case stepReasm f =>
    obtain ⟨r, hr⟩ := row f rfl (by simp) ⟨_, (Host.Outcome.next.inj h).symm⟩
    exact .inr (.inr (.inl ⟨f, r, rfl, by simp, hr⟩))
  all_goals clear row
  all_goals
    simp only [exec, execEncPump, execEncPres, execEncTemp, execEncWheel, execEncUnknown, execDecShort, execDecPump,
      execDecPres, execDecTemp, execDecWheel, execDecUnknown, execStepStart, execStepConnfail, execStepTop, execStepIssue,
      execStepRx, execStepTmo, execStepRxerr, execStepPub, execStepEnd, execStepSnap, execStepStop, execStepShutdown,
      execStepEnc, execStepDec, State.encodeRequest, State.decReport] at h
  all_goals repeat' split at h
  all_goals simp only [Host.Outcome.next.injEq] at h
  all_goals first
    | exact .inl h.symm
    | exact .inr (.inl ⟨_, _, h.symm⟩)
    | simp_all

/-- A list of steps run one step at a time. -/
theorem execAll_cons {i : Instr} {is : List Instr} {s t : State} (h : exec i s = .next t) :
    execAll (i :: is) s = execAll is t := by simp [execAll, h]

/-- A list of steps always answers a next state. -/
theorem execAll_answers_next (is : List Instr) (s : State) : ∃ t, execAll is s = .next t := by
  induction is generalizing s with
  | nil => exact ⟨s, rfl⟩
  | cons i is ih =>
    obtain ⟨u, hu⟩ := exec_answers_next i s
    rw [execAll_cons hu]; exact ih u

end Sys2Proof.Machine
end

