-- ==== Sys2Proof/Laws/PerInstr.lean ====
section
/-! SUPPORT. Laws/PerInstr.lean: the family `TableRow`: an instruction's encoded word has the bits its row of
spec/opcode_table.json fixes (match and mask). -/

namespace Sys2Proof.Laws.TableRow

open Sys2Proof Sys2Proof.Machine

/-- The match of a row, transcribed from the table; 0 with mask 0 for the two rows with no word. -/
def rowMatch : Instr → Nat
  | .encPump => 0x0 | .encPres => 0x1 | .encTemp => 0x2 | .encWheel => 0x3 | .encUnknown _ => 0x4
  | .reasmEmpty _ => 0x0 | .reasmSingle _ => 0xC0 | .reasmStart _ => 0x80 | .reasmCont _ => 0x00 | .reasmEnd _ => 0x40
  | .reasmViolation _ => 0x00
  | .decShort _ => 0x0 | .decPump _ => 0x0005 | .decPres _ => 0x0003 | .decTemp _ => 0x0002 | .decWheel _ => 0x0006
  | .decUnknown _ => 0x0000
  | .stepStart => 0x3 | .stepConnfail => 0x4 | .stepTop => 0x5 | .stepIssue _ => 0x6 | .stepRx _ => 0x7 | .stepTmo => 0x8
  | .stepRxerr => 0x9 | .stepPub _ => 0xA | .stepEnd => 0xB | .stepSnap => 0xC | .stepStop => 0xD | .stepShutdown => 0xE
  | .stepEnc _ => 0x0 | .stepReasm _ => 0x1 | .stepDec _ => 0x2

/-- The mask of a row, transcribed from the table. -/
def rowMask : Instr → Nat
  | .encPump => 0x7 | .encPres => 0x7 | .encTemp => 0x7 | .encWheel => 0x7 | .encUnknown _ => 0x4
  | .reasmEmpty _ => 0x0 | .reasmSingle _ => 0xC0 | .reasmStart _ => 0xC0 | .reasmCont _ => 0xC0 | .reasmEnd _ => 0xC0
  | .reasmViolation _ => 0x80
  | .decShort _ => 0x0 | .decPump _ => 0xFFFF | .decPres _ => 0xFFFF | .decTemp _ => 0xFFFF | .decWheel _ => 0xFFFF
  | .decUnknown _ => 0x0000
  | .stepStart => 0xF | .stepConnfail => 0xF | .stepTop => 0xF | .stepIssue _ => 0xF | .stepRx _ => 0xF | .stepTmo => 0xF
  | .stepRxerr => 0xF | .stepPub _ => 0xF | .stepEnd => 0xF | .stepSnap => 0xF | .stepStop => 0xF | .stepShutdown => 0xF
  | .stepEnc _ => 0xF | .stepReasm _ => 0xF | .stepDec _ => 0xF

/-- The word an offer's format reads: the select code or step code, the header byte, the operation code. -/
def codedWord (o : Offer) : Nat :=
  match o.port with
  | .encIn => (byteAt o.bytes 0).toNat
  | .line => (byteAt o.bytes 0).toNat
  | .reasmIn => (byteAt o.bytes 4).toNat
  | .decIn => be16 (byteAt o.bytes) 3

/-- The encoded word has the row's fixed bits, under the default operation codes. -/
def Statement (i : Instr) : Prop := i.wf defaultConfig = true → codedWord (encode i) &&& rowMask i = rowMatch i

theorem header_bits (h : Byte) (s e : Bool) (hh : (hdrStart h == s && hdrEnd h == e) = true) :
    h.toNat &&& 0xC0 = (if s then 0x80 else 0) + (if e then 0x40 else 0) ∧ h.toNat &&& 0x80 = (if s then 0x80 else 0) := by
  revert h s e; decide

theorem header_of_frame {f : Frame} {s e : Bool} (hf : f.headerIs s e = true) :
    (byteAt (encodeFrame f) 4).toNat &&& 0xC0 = (if s then 0x80 else 0) + (if e then 0x40 else 0) ∧
      (byteAt (encodeFrame f) 4).toNat &&& 0x80 = (if s then 0x80 else 0) := by
  cases hd : f.data with
  | nil => simp [Frame.headerIs, hd] at hf
  | cons h tl =>
    have hb : byteAt (encodeFrame f) 4 = h := by simp [byteAt, encodeFrame, hd]
    rw [hb]; exact header_bits h s e (by simpa [Frame.headerIs, hd] using hf)

theorem op_bits {p : Payload} {s : Sensor} (hp : opIs defaultConfig p s = true) :
    be16 (byteAt p) 3 &&& 0xFFFF = (opcodeOf defaultConfig s).toNat := by
  have h : be16 (byteAt p) 3 = (opcodeOf defaultConfig s).toNat := by simp [opIs] at hp; exact hp.2
  rw [h]; cases s <;> rfl

theorem line_word (code : Byte) (ops : List Byte) : codedWord (encodeLine code ops) = code.toNat := by
  simp [codedWord, encodeLine, byteAt]

theorem encPump : Statement .encPump := fun _ => rfl
theorem encPres : Statement .encPres := fun _ => rfl
theorem encTemp : Statement .encTemp := fun _ => rfl
theorem encWheel : Statement .encWheel := fun _ => rfl
theorem encUnknown (sel : Sel) : Statement (.encUnknown sel) := by unfold Statement; revert sel; decide
theorem reasmEmpty (f : Frame) : Statement (.reasmEmpty f) := fun _ => Nat.and_zero _
theorem reasmSingle (f : Frame) : Statement (.reasmSingle f) := fun h =>
  (header_of_frame (s := true) (e := true) (by simp [Instr.wf] at h; exact h.2)).1
theorem reasmStart (f : Frame) : Statement (.reasmStart f) := fun h =>
  (header_of_frame (s := true) (e := false) (by simp [Instr.wf] at h; exact h.2)).1
theorem reasmCont (f : Frame) : Statement (.reasmCont f) := fun h =>
  (header_of_frame (s := false) (e := false) (by simp [Instr.wf] at h; exact h.2)).1
theorem reasmEnd (f : Frame) : Statement (.reasmEnd f) := fun h =>
  (header_of_frame (s := false) (e := true) (by simp [Instr.wf] at h; exact h.2)).1
theorem reasmViolation (f : Frame) : Statement (.reasmViolation f) := fun h => by
  simp only [Instr.wf, Bool.and_eq_true, Bool.or_eq_true] at h
  rcases h.2 with h | h
  · exact (header_of_frame h).2
  · exact (header_of_frame h).2
theorem decShort (p : Payload) : Statement (.decShort p) := fun _ => Nat.and_zero _
theorem decPump (p : Payload) : Statement (.decPump p) := fun h => op_bits (s := .pumpCurrent) h
theorem decPres (p : Payload) : Statement (.decPres p) := fun h => op_bits (s := .oilPressure) h
theorem decTemp (p : Payload) : Statement (.decTemp p) := fun h => op_bits (s := .oilTemperature) h
theorem decWheel (p : Payload) : Statement (.decWheel p) := fun h => op_bits (s := .wheelSpeeds) h
theorem decUnknown (p : Payload) : Statement (.decUnknown p) := fun _ => Nat.and_zero _
theorem stepStart : Statement .stepStart := fun _ => rfl
theorem stepConnfail : Statement .stepConnfail := fun _ => rfl
theorem stepTop : Statement .stepTop := fun _ => rfl
theorem stepIssue (ok : Bool) : Statement (.stepIssue ok) := fun _ => by cases ok <;> rfl
theorem stepRx (f : Frame) : Statement (.stepRx f) := fun _ => by simp [encode, line_word, rowMask, rowMatch]
theorem stepTmo : Statement .stepTmo := fun _ => rfl
theorem stepRxerr : Statement .stepRxerr := fun _ => rfl
theorem stepPub (t : Nat) : Statement (.stepPub t) := fun _ => by simp [encode, line_word, rowMask, rowMatch]
theorem stepEnd : Statement .stepEnd := fun _ => rfl
theorem stepSnap : Statement .stepSnap := fun _ => rfl
theorem stepStop : Statement .stepStop := fun _ => rfl
theorem stepShutdown : Statement .stepShutdown := fun _ => rfl
theorem stepEnc (sel : Sel) : Statement (.stepEnc sel) := fun _ => by simp [encode, line_word, rowMask, rowMatch]
theorem stepReasm (f : Frame) : Statement (.stepReasm f) := fun _ => by simp [encode, line_word, rowMask, rowMatch]
theorem stepDec (p : Payload) : Statement (.stepDec p) := fun _ => by simp [encode, line_word, rowMask, rowMatch]

end Sys2Proof.Laws.TableRow
end

