-- ==== Sys2Proof/Laws/Step.lean ====
section
/-! SUPPORT. Laws/Step.lean: what one step can do, said once: it runs the next line of the trace, or takes a frame the host
has kept. -/

namespace Sys2Proof.Machine

/-- A kept frame offered is one of the kept frames, and the host still keeps only kept frames. -/
theorem State.heldOffer_mem {s : State} {f : Frame} {rest : List Frame} (h : s.heldOffer = some (f, rest)) :
    f ∈ s.held ∧ ∀ g ∈ rest, g ∈ s.held := by
  unfold State.heldOffer at h
  split at h
  · simp at h
  · split at h
    · simp at h
    · rename_i k _ _ g hg
      obtain ⟨rfl, rfl⟩ : g = f ∧ s.held.eraseIdx k = rest := by simpa using h
      exact ⟨List.mem_of_getElem? hg, fun x hx => List.mem_of_mem_eraseIdx hx⟩

/-- A line taken is the trace's first, decoded and run. -/
theorem takeLine_cases {s t : State} (h : takeLine s = .next t) :
    ∃ o rest i, s.trace = o :: rest ∧ decode s.cfg s.reasm o = .ok i ∧ exec i { s with trace := rest } = .next t := by
  unfold takeLine at h
  split at h
  · simp at h
  · split at h
    · simp at h
    · exact ⟨_, _, _, ‹_›, ‹_›, h⟩

/-- With no poll waiting, or no frame kept, a step takes the next line. -/
theorem step_eq_takeLine {s : State} (h : s.cst ≠ .cWait ∨ s.held = []) : step s = takeLine s := by
  have : s.mayOfferHeld = false := by rcases h with h | h <;> simp [State.mayOfferHeld, h]
  simp [step, this]

/-- What a step can do: run the next line of the trace, or take a kept frame while a poll waits. -/
theorem step_cases {s t : State} (h : step s = .next t) :
    (∃ o rest i n, s.trace = o :: rest ∧ decode s.cfg s.reasm o = .ok i ∧
      exec i { s with trace := rest, picks := n } = .next t) ∨
    (∃ f rest n, s.cst = .cWait ∧ f ∈ s.held ∧ (∀ g ∈ rest, g ∈ s.held) ∧
      exec (.stepRx f) { s with held := rest, picks := n } = .next t) := by
  unfold step at h
  split at h
  · rename_i hm
    split at h
    · rename_i f rest ho
      obtain ⟨hf, hr⟩ := State.heldOffer_mem ho
      simp only [State.mayOfferHeld, decide_eq_true_eq] at hm
      exact .inr ⟨f, rest, _, hm.1, hf, hr, h⟩
    · obtain ⟨o, rest, i, h1, h2, h3⟩ := takeLine_cases h
      exact .inl ⟨o, rest, i, _, h1, h2, h3⟩
  · obtain ⟨o, rest, i, h1, h2, h3⟩ := takeLine_cases h
    exact .inl ⟨o, rest, i, s.picks, h1, h2, h3⟩

end Sys2Proof.Machine
end

