-- ==== Sys2Proof/Tests/Slice0.lean ====
section
/-! SUPPORT. Tests/Slice0.lean: tests of the model, their expected results taken from spec/95_test_vectors.md (the vector is
named) and the encodings of 30_encoding.md; and for each statement with hypotheses, a state and operands that meet
them. -/

namespace Sys2Proof.Tests

open Sys2Proof Sys2Proof.Machine

/-! ### Small states -/

/-- `RESP_ID`, written out (R6). -/
abbrev key : Ident := 0x01204001#29

/-- An extended frame on `RESP_ID`. -/
abbrev resp (d : List Byte) : Frame := { ext := true, id := key, data := d }

/-- A request frame, from its template's third byte (vectors E1 to E4). -/
abbrev sent (b : Byte) : Frame :=
  { ext := true, id := 0x000FFFFE#29, data := [0xCD#8, 0x1A#8, 0xA6#8, 0x00#8, b, 0x01#8, 0x01#8, 0x00#8] }

/-- A report. -/
abbrev rep (st : Status) (v : Option Value) : Option Report := some { status := st, value := v }

/-- Both loops running, the collector at a control state with a sensor index. -/
abbrev up (c : CollectorState) (i : Fin 4) : State :=
  { State.reset with conn := .connUp, run := true, rst := .rTop, cst := c, idx := i }

/-- The same with `RUN` false. -/
abbrev stopped (c : CollectorState) (i : Fin 4) : State := { up c i with run := false }

/-- The reset state with one open buffer on `RESP_ID`. -/
abbrev opened (b : List Byte) : State := { State.reset with reasm := [(key, b)] }

/-- A collector with a reading to publish. -/
abbrev publishing (i : Fin 4) (r : Reading) : State := { up .cPub i with pend := some r }

/-! ### Ill-formed terms are refused by WellFormed -/

theorem test_wf_two_equal_operation_codes :
    Config.wf { defaultConfig with opcode := { defaultOpcodes with pump := 0x0003#16 } } = false := by decide

theorem test_wf_sensor_twice_in_order :
    Config.wf { defaultConfig with roundOrder := { defaultRoundOrder with second := .pumpCurrent } } = false := by decide

theorem test_wf_default_config : Config.wf defaultConfig = true := by decide

theorem test_wf_frame_of_nine_bytes : (resp (List.replicate 9 0x80#8)).wf = false := by decide

theorem test_wf_enc_unknown_of_a_sensor : Instr.wf defaultConfig (.encUnknown 3#3) = false := by decide

theorem test_wf_empty_row_with_data : Instr.wf defaultConfig (.reasmEmpty (resp [0xC0#8])) = false := by decide

theorem test_wf_single_row_without_end : Instr.wf defaultConfig (.reasmSingle (resp [0x80#8])) = false := by decide

theorem test_wf_start_row_with_end : Instr.wf defaultConfig (.reasmStart (resp [0xC0#8])) = false := by decide

theorem test_wf_cont_row_with_start : Instr.wf defaultConfig (.reasmCont (resp [0x80#8])) = false := by decide

theorem test_wf_end_row_without_end : Instr.wf defaultConfig (.reasmEnd (resp [0x00#8])) = false := by decide

theorem test_wf_violation_row_with_start : Instr.wf defaultConfig (.reasmViolation (resp [0xC0#8])) = false := by decide

theorem test_wf_header_row_without_header : Instr.wf defaultConfig (.reasmStart (resp [])) = false := by decide

theorem test_wf_short_row_of_six_bytes : Instr.wf defaultConfig (.decShort (List.replicate 6 0#8)) = false := by decide

theorem test_wf_pump_row_of_pressure_code :
    Instr.wf defaultConfig (.decPump [0#8, 0#8, 0#8, 0x00#8, 0x03#8, 0#8]) = false := by decide

theorem test_wf_pressure_row_of_pump_code :
    Instr.wf defaultConfig (.decPres [0#8, 0#8, 0#8, 0x00#8, 0x05#8, 0#8]) = false := by decide

theorem test_wf_temperature_row_of_five_bytes :
    Instr.wf defaultConfig (.decTemp [0#8, 0#8, 0#8, 0x00#8, 0x02#8]) = false := by decide

theorem test_wf_wheel_row_of_unknown_code :
    Instr.wf defaultConfig (.decWheel [0#8, 0#8, 0#8, 0x01#8, 0x06#8, 0#8]) = false := by decide

theorem test_wf_unknown_row_of_wheel_code :
    Instr.wf defaultConfig (.decUnknown [0#8, 0#8, 0#8, 0x00#8, 0x06#8, 0#8]) = false := by decide

theorem test_wf_unknown_row_of_five_bytes :
    Instr.wf defaultConfig (.decUnknown [0#8, 0#8, 0#8, 0x00#8, 0x07#8]) = false := by decide

theorem test_wf_rx_of_nine_bytes : Instr.wf defaultConfig (.stepRx (resp (List.replicate 9 0#8))) = false := by decide

theorem test_wf_reasm_line_of_nine_bytes :
    Instr.wf defaultConfig (.stepReasm (resp (List.replicate 9 0#8))) = false := by decide

/-! ### Decoding: every row's word, bit by bit from R85, R76, R81 and R87 -/

theorem test_decode_sel3 :
    decode defaultConfig [] { port := .encIn, bytes := [0b00000000#8] } = .ok .encPump ∧
    decode defaultConfig [] { port := .encIn, bytes := [0b00000001#8] } = .ok .encPres ∧
    decode defaultConfig [] { port := .encIn, bytes := [0b00000010#8] } = .ok .encTemp ∧
    decode defaultConfig [] { port := .encIn, bytes := [0b00000011#8] } = .ok .encWheel ∧
    decode defaultConfig [] { port := .encIn, bytes := [0b00000100#8] } = .ok (.encUnknown 0b100#3) ∧
    decode defaultConfig [] { port := .encIn, bytes := [0b00000111#8] } = .ok (.encUnknown 0b111#3) ∧
    decode defaultConfig [] { port := .encIn, bytes := [0b00001000#8] } = .error .selTooWide := by
  refine ⟨?_, ?_, ?_, ?_, ?_, ?_, ?_⟩ <;> rfl

/-- The header classes of R76, on identifier 01204001, with bits 5:4 set in one of them (R78). -/
theorem test_decode_hdr8 :
    decode defaultConfig [] { port := .reasmIn, bytes := [0x01#8, 0x20#8, 0x40#8, 0x01#8] } = .ok (.reasmEmpty (resp [])) ∧
    decode defaultConfig [] { port := .reasmIn, bytes := [0x01#8, 0x20#8, 0x40#8, 0x01#8, 0b11000110#8, 0xAA#8] } =
      .ok (.reasmSingle (resp [0xC6#8, 0xAA#8])) ∧
    decode defaultConfig [] { port := .reasmIn, bytes := [0x01#8, 0x20#8, 0x40#8, 0x01#8, 0b10110111#8] } =
      .ok (.reasmStart (resp [0xB7#8])) ∧
    decode defaultConfig [(key, [0x87#8])] { port := .reasmIn, bytes := [0x01#8, 0x20#8, 0x40#8, 0x01#8, 0b00000011#8] } =
      .ok (.reasmCont (resp [0x03#8])) ∧
    decode defaultConfig [(key, [0x87#8])] { port := .reasmIn, bytes := [0x01#8, 0x20#8, 0x40#8, 0x01#8, 0b01000011#8] } =
      .ok (.reasmEnd (resp [0x43#8])) ∧
    decode defaultConfig [] { port := .reasmIn, bytes := [0x01#8, 0x20#8, 0x40#8, 0x01#8, 0b00000101#8] } =
      .ok (.reasmViolation (resp [0x05#8])) := by
  refine ⟨?_, ?_, ?_, ?_, ?_, ?_⟩ <;> rfl

/-- The operation code is bytes 3 and 4, big-endian, all 16 bits matched (R79, R81; vectors DV1 to DV3). -/
theorem test_decode_opc16 :
    decode defaultConfig [] { port := .decIn, bytes := [0xC6#8, 0#8, 0#8, 0x00#8, 0x02#8] } =
      .ok (.decShort [0xC6#8, 0#8, 0#8, 0x00#8, 0x02#8]) ∧
    decode defaultConfig [] { port := .decIn, bytes := [0xC6#8, 0#8, 0#8, 0x00#8, 0x05#8, 0#8] } =
      .ok (.decPump [0xC6#8, 0#8, 0#8, 0x00#8, 0x05#8, 0#8]) ∧
    decode defaultConfig [] { port := .decIn, bytes := [0xC6#8, 0#8, 0#8, 0x00#8, 0x03#8, 0#8] } =
      .ok (.decPres [0xC6#8, 0#8, 0#8, 0x00#8, 0x03#8, 0#8]) ∧
    decode defaultConfig [] { port := .decIn, bytes := [0xC6#8, 0#8, 0#8, 0x00#8, 0x02#8, 0#8] } =
      .ok (.decTemp [0xC6#8, 0#8, 0#8, 0x00#8, 0x02#8, 0#8]) ∧
    decode defaultConfig [] { port := .decIn, bytes := [0xC6#8, 0#8, 0#8, 0x00#8, 0x06#8, 0#8] } =
      .ok (.decWheel [0xC6#8, 0#8, 0#8, 0x00#8, 0x06#8, 0#8]) ∧
    decode defaultConfig [] { port := .decIn, bytes := [0xC6#8, 0#8, 0#8, 0x01#8, 0x02#8, 0x19#8] } =
      .ok (.decUnknown [0xC6#8, 0#8, 0#8, 0x01#8, 0x02#8, 0x19#8]) := by
  refine ⟨?_, ?_, ?_, ?_, ?_, ?_⟩ <;> rfl

/-- The step codes of R87 with no operand. -/
theorem test_decode_step4_plain :
    decode defaultConfig [] { port := .line, bytes := [0b0011#8] } = .ok .stepStart ∧
    decode defaultConfig [] { port := .line, bytes := [0b0100#8] } = .ok .stepConnfail ∧
    decode defaultConfig [] { port := .line, bytes := [0b0101#8] } = .ok .stepTop ∧
    decode defaultConfig [] { port := .line, bytes := [0b1000#8] } = .ok .stepTmo ∧
    decode defaultConfig [] { port := .line, bytes := [0b1001#8] } = .ok .stepRxerr ∧
    decode defaultConfig [] { port := .line, bytes := [0b1011#8] } = .ok .stepEnd ∧
    decode defaultConfig [] { port := .line, bytes := [0b1100#8] } = .ok .stepSnap ∧
    decode defaultConfig [] { port := .line, bytes := [0b1101#8] } = .ok .stepStop ∧
    decode defaultConfig [] { port := .line, bytes := [0b1110#8] } = .ok .stepShutdown ∧
    decode defaultConfig [] { port := .line, bytes := [0b1111#8] } = .error .reservedStepCode := by
  refine ⟨?_, ?_, ?_, ?_, ?_, ?_, ?_, ?_, ?_, ?_⟩ <;> rfl

/-- The step codes of R87 with operands; `6 | 1`, `7 | 01204001 | C6 00` as in the programs of section 8. -/
theorem test_decode_step4_operands :
    decode defaultConfig [] { port := .line, bytes := [0b0000#8, 0x03#8] } = .ok (.stepEnc 3#3) ∧
    decode defaultConfig [] { port := .line, bytes := [0b0001#8, 0x01#8, 0x20#8, 0x40#8, 0x01#8, 0xC6#8] } =
      .ok (.stepReasm (resp [0xC6#8])) ∧
    decode defaultConfig [] { port := .line, bytes := [0b0010#8, 0xC6#8, 0x00#8] } = .ok (.stepDec [0xC6#8, 0x00#8]) ∧
    decode defaultConfig [] { port := .line, bytes := [0b0110#8, 0x01#8] } = .ok (.stepIssue true) ∧
    decode defaultConfig [] { port := .line, bytes := [0b0110#8, 0x00#8] } = .ok (.stepIssue false) ∧
    decode defaultConfig [] { port := .line, bytes := [0b0110#8, 0x02#8] } = .error .badSendResult ∧
    decode defaultConfig [] { port := .line, bytes := [0b0111#8, 0x01#8, 0x20#8, 0x40#8, 0x01#8, 0xC6#8, 0x00#8] } =
      .ok (.stepRx (resp [0xC6#8, 0x00#8])) ∧
    decode defaultConfig [] { port := .line, bytes := [0b1010#8, 0x01#8, 0x02#8] } = .ok (.stepPub 0x102) := by
  refine ⟨?_, ?_, ?_, ?_, ?_, ?_, ?_, ?_⟩ <;> rfl

/-- An identifier above 29 bits, a tenth byte, a missing identifier byte and a spare operand are refused; a standard
identifier's frame is marked (log 2). -/
theorem test_decode_refuses_malformed_operands :
    decode defaultConfig [] { port := .line, bytes := [0x7#8, 0x20#8, 0#8, 0#8, 0#8] } = .error .identTooWide ∧
    decode defaultConfig [] { port := .line, bytes := 0x7#8 :: List.replicate 13 0#8 } = .error .frameTooLong ∧
    decode defaultConfig [] { port := .line, bytes := [0x7#8, 0#8, 0#8, 0#8] } = .error .missingOperand ∧
    decode defaultConfig [] { port := .line, bytes := [0x5#8, 0#8] } = .error .trailingBytes ∧
    decode defaultConfig [] { port := .line, bytes := [] } = .error .noCode ∧
    decode defaultConfig [] { port := .line, bytes := [0x10#8] } = .error .codeTooWide ∧
    decode defaultConfig [] { port := .line, bytes := [0x7#8, 0x81#8, 0x20#8, 0x40#8, 0x01#8] } =
      .ok (.stepRx { ext := false, id := key, data := [] }) := by
  refine ⟨?_, ?_, ?_, ?_, ?_, ?_, ?_⟩ <;> rfl

theorem test_encode_written_out :
    encode (.stepRx (resp [0x41#8, 0x38#8])) =
      { port := .line, bytes := [0x7#8, 0x01#8, 0x20#8, 0x40#8, 0x01#8, 0x41#8, 0x38#8] } ∧
    encode (.stepPub 0x164) = { port := .line, bytes := [0xA#8, 0x01#8, 0x64#8] } ∧
    encode (.stepIssue false) = { port := .line, bytes := [0x6#8, 0x0#8] } ∧
    encode .encTemp = { port := .encIn, bytes := [0x2#8] } := by
  refine ⟨?_, ?_, ?_, ?_⟩ <;> rfl

/-- Words of the table (log 9), and that the step runs them first from reset. -/
theorem test_table_words :
    decodeTableWord 8 0x3 = some .stepStart ∧ decodeTableWord 8 0xC0 = some (.reasmSingle ⟨true, 0#29, [0xC0#8]⟩) ∧
    decodeTableWord 8 0x40 = some (.reasmEnd ⟨true, 0#29, [0x40#8]⟩) ∧
    decodeTableWord 16 0x0005 = some (.decPump [0#8, 0#8, 0#8, 0#8, 5#8, 0#8, 0#8, 0#8, 0#8, 0#8, 0#8, 0#8, 0#8, 0#8]) ∧
    decodeTableWord 3 0x4 = some (.encUnknown 4#3) ∧ decodeTableWord 8 0xF = none := by
  refine ⟨?_, ?_, ?_, ?_, ?_, ?_⟩ <;> rfl

theorem test_table_word_runs_first :
    step (State.reset.withFetchWord 8 0x3) = exec .stepStart State.reset ∧
    step (State.reset.withFetchWord 8 0x40) =
      exec (.reasmEnd ⟨true, 0#29, [0x40#8]⟩) { State.reset with reasm := [(0#29, [0x80#8])] } ∧
    step State.reset = .fault .hostSilent := by
  refine ⟨?_, ?_, ?_⟩ <;> rfl

/-! ### The encoder (vectors E1 to E5) -/

theorem test_E1 : exec .encPump State.reset = .next { State.reset with ret := rep .ok (some (.frame (sent 0x05#8))) } := by
  rfl

theorem test_E2 : exec .encPres State.reset = .next { State.reset with ret := rep .ok (some (.frame (sent 0x03#8))) } := by
  rfl

theorem test_E3 : exec .encTemp State.reset = .next { State.reset with ret := rep .ok (some (.frame (sent 0x02#8))) } := by
  rfl

theorem test_E4 : exec .encWheel State.reset = .next { State.reset with ret := rep .ok (some (.frame (sent 0x06#8))) } := by
  rfl

theorem test_E5 : exec (.encUnknown 4#3) (up .cWait 1) = .next { up .cWait 1 with ret := rep .unknownSensor none } := by
  rfl

theorem test_E5_line : exec (.stepEnc 7#3) State.reset = .next { State.reset with ret := rep .unknownSensor none } := by rfl

/-- The frame of E1 as one big-endian number (R72). -/
theorem test_E1_as_number : beValue (requestFrame .pumpCurrent).data = 0xCD1AA60005010100 := by decide

/-! ### The reassembler (vectors A1 to A18) -/

theorem test_A1 :
    exec (.reasmSingle (resp [0xC6#8, 0#8, 0#8, 0#8, 2#8, 0x19#8, 0#8, 0#8])) State.reset =
      .next { State.reset with ret := rep .ok (some (.payload [0xC6#8, 0#8, 0#8, 0#8, 2#8, 0x19#8, 0#8, 0#8])) } := by rfl

theorem test_A3 :
    exec (.reasmCont (resp [3#8, 3#8, 0xE9#8, 0#8, 0xFF#8, 0xFF#8, 0xFF#8]))
        (opened [0x87#8, 0#8, 0#8, 0#8, 6#8, 0#8, 3#8, 0xE8#8]) =
      .next { opened [0x87#8, 0#8, 0#8, 0#8, 6#8, 0#8, 3#8, 0xE8#8, 3#8, 0xE9#8, 0#8] with ret := rep .ok none } := by rfl

theorem test_A4 :
    exec (.reasmEnd (resp [0x43#8, 0#8, 0xFF#8, 0xFF#8, 0#8, 0#8, 0#8, 0#8]))
        (opened [0x87#8, 0#8, 0#8, 0#8, 6#8, 0#8, 3#8, 0xE8#8, 3#8, 0xE9#8, 0#8]) =
      .next { State.reset with ret := rep .ok (some (.payload
        [0x87#8, 0#8, 0#8, 0#8, 6#8, 0#8, 3#8, 0xE8#8, 3#8, 0xE9#8, 0#8, 0#8, 0xFF#8, 0xFF#8])) } := by rfl

theorem test_A6 :
    exec (.reasmViolation (resp [0x45#8, 1#8, 2#8, 3#8, 4#8, 5#8, 0#8, 0#8])) State.reset =
      .next { State.reset with out := [.evt .protocolViolation], ret := rep .protocolViolation none } := by rfl

theorem test_A7 :
    exec (.reasmEmpty (resp [])) (opened [0x87#8, 0#8]) =
      .next { opened [0x87#8, 0#8] with out := [.evt .emptyFrame], ret := rep .emptyFrame none } := by rfl

theorem test_A9 :
    exec (.reasmStart (resp [0x86#8, 0x11#8, 0x22#8, 0x33#8, 0x44#8, 0x55#8, 0x66#8]))
        (opened [0x87#8, 0#8, 0#8, 0#8, 6#8, 0#8, 3#8, 0xE8#8]) =
      .next { opened [0x86#8, 0x11#8, 0x22#8, 0x33#8, 0x44#8, 0x55#8, 0x66#8] with ret := rep .ok none } := by rfl

theorem test_A10 :
    exec (.reasmCont (resp [0x0F#8, 0xAA#8, 0xBB#8])) (opened [0x88#8, 1#8]) =
      .next { opened [0x88#8, 1#8, 0xAA#8, 0xBB#8] with ret := rep .ok none } := by rfl

theorem test_A11 :
    exec (.reasmEnd (resp [0x40#8, 0x11#8, 0x22#8])) (opened [0x88#8, 1#8]) =
      .next { State.reset with ret := rep .ok (some (.payload [0x88#8, 1#8])) } := by rfl

theorem test_A15 : exec (.reasmStart (resp [0x80#8])) State.reset = .next { opened [0x80#8] with ret := rep .ok none } := by
  rfl

theorem test_A16 :
    exec (.reasmSingle (resp [0xC5#8, 0#8, 0#8, 0#8, 2#8, 0x7F#8])) (opened [0x88#8, 1#8]) =
      .next { State.reset with ret := rep .ok (some (.payload [0xC5#8, 0#8, 0#8, 0#8, 2#8, 0x7F#8])) } := by rfl

theorem test_A17 :
    exec (.stepReasm (resp [1#8, 0xAA#8])) { State.reset with reasm := [(0x123#29, [0x80#8])] } =
      .next { State.reset with
        reasm := [(0x123#29, [0x80#8])], out := [.evt .protocolViolation], ret := rep .protocolViolation none } := by rfl

theorem test_A18 :
    exec (.stepReasm (resp [0x35#8, 0xAA#8, 0xBB#8, 0xCC#8, 0xDD#8, 0xEE#8])) (opened [0x88#8, 1#8]) =
      .next { opened [0x88#8, 1#8, 0xAA#8, 0xBB#8, 0xCC#8, 0xDD#8, 0xEE#8] with ret := rep .ok none } := by rfl

/-! ### The decoder (vectors DV1 to DV21) -/

theorem test_DV1 : exec (.decShort [0xC6#8, 0#8, 0#8, 0#8, 2#8]) State.reset =
    .next { State.reset with ret := rep .decodeTooShort none } := by rfl

theorem test_DV3 : exec (.decUnknown [0xC6#8, 0#8, 0#8, 1#8, 2#8, 0x19#8]) State.reset =
    .next { State.reset with ret := rep .unknownOperation none } := by rfl

theorem test_DV6 : exec (.decTemp [0xC6#8, 0#8, 0#8, 0#8, 2#8, 0xF6#8]) State.reset =
    .next { State.reset with ret := rep .ok (some (.reading (.temperature (-10)))) } := by rfl

theorem test_DV7 : exec (.decTemp [0xC6#8, 0#8, 0#8, 0#8, 2#8, 0x7F#8]) State.reset =
    .next { State.reset with ret := rep .ok (some (.reading (.temperature 127))) } := by rfl

theorem test_DV9 : exec (.decPres [0xC6#8, 0#8, 0#8, 0#8, 3#8, 0x3D#8]) State.reset =
    .next { State.reset with ret := rep .ok (some (.reading (.pressure 61))) } := by rfl

theorem test_DV10 : exec (.decPres [0xC6#8, 0#8, 0#8, 0#8, 3#8, 0xFF#8]) State.reset =
    .next { State.reset with ret := rep .ok (some (.reading (.pressure 255))) } := by rfl

theorem test_DV12 : exec (.decPump [0xC9#8, 0#8, 0#8, 0#8, 5#8, 1#8, 0x2C#8, 0xFF#8, 0x38#8]) State.reset =
    .next { State.reset with ret := rep .ok (some (.reading (.pump 300 (-200)))) } := by rfl

theorem test_DV14 : exec (.decPump [0xC8#8, 0#8, 0#8, 0#8, 5#8, 0xFF#8, 0xFF#8, 0#8]) State.reset =
    .next { State.reset with ret := rep .decodeTooShort none } := by rfl

theorem test_DV15 :
    exec (.decWheel [0x87#8, 0#8, 0#8, 0#8, 6#8, 0#8, 3#8, 0xE8#8, 3#8, 0xE9#8, 0#8, 0#8, 0xFF#8, 0xFF#8]) State.reset =
      .next { State.reset with ret := rep .ok (some (.reading (.wheels 1000 1001 0 65535))) } := by rfl

theorem test_DV16 :
    exec (.decWheel [0x87#8, 0#8, 0#8, 0#8, 6#8, 0#8, 3#8, 0xE8#8, 3#8, 0xE9#8, 0#8, 0#8, 0xFF#8]) State.reset =
      .next { State.reset with ret := rep .decodeTooShort none } := by rfl

theorem test_DV13_line :
    exec (.stepDec [0xC9#8, 0#8, 0#8, 0#8, 5#8, 0x80#8, 0#8, 0x7F#8, 0xFF#8]) State.reset =
      .next { State.reset with ret := rep .ok (some (.reading (.pump (-32768) 32767))) } := by rfl

theorem test_DV21_line : exec (.stepDec [0xC6#8, 0#8, 0#8, 0xFF#8, 0xFF#8, 0x19#8]) State.reset =
    .next { State.reset with ret := rep .unknownOperation none } := by rfl

/-- W6, W7, W8, DV7 and DV8: the physical values, as exact fractions. -/
theorem test_physical_values :
    barOf 61 = 10004 / 10000 ∧ kmhOf 1000 = 156 / 10 ∧ fahrenheitOf (-10) = 14 ∧ fahrenheitOf 127 = 2606 / 10 ∧
    fahrenheitOf (-128) = -1984 / 10 := by
  norm_num [barOf, kmhOf, fahrenheitOf, scalePressure, scaleWheel]

/-! ### The poll sequencer (vectors Q1 to Q13) -/

theorem test_Q1 : exec (.stepIssue true) (up .cIssue 2) =
    .next { up .cWait 2 with out := [.tx (sent 0x02#8)], ret := rep .ok none } := by rfl

theorem test_Q2 : exec (.stepRx (resp [0xC6#8, 0#8, 0#8, 0#8, 2#8, 0x19#8, 0#8, 0#8])) (up .cWait 2) =
    .next { up .cPub 2 with
      pend := some (.temperature 25), out := [.pollDone .oilTemperature .ok (some (.temperature 25))]
      ret := rep .ok (some (.reading (.temperature 25))) } := by rfl

theorem test_Q3 : exec (.stepIssue false) (up .cIssue 1) =
    .next { up .cEnd 1 with
      roundErr := true, out := [.tx (sent 0x03#8), .pollDone .oilPressure .transportError none]
      ret := rep .transportError none } := by rfl

theorem test_Q6 : exec (.stepRx (resp [0xC6#8, 0#8, 0#8, 0#8, 2#8, 0x19#8, 0#8, 0#8])) (up .cWait 1) =
    .next { up .cWait 1 with out := [.evt .kindMismatch], ret := rep .kindMismatch none } := by rfl

theorem test_Q8 : exec .stepTmo (up .cWait 3) =
    .next { up .cEnd 3 with out := [.pollDone .wheelSpeeds .timeout none], ret := rep .timeout none } := by rfl

theorem test_Q9 : exec .stepTmo { up .cWait 0 with reasm := [(key, [0x87#8, 0#8])] } =
    .next { up .cIssue 1 with
      reasm := [(key, [0x87#8, 0#8])], out := [.pollDone .pumpCurrent .timeout none], ret := rep .timeout none } := by rfl

theorem test_Q10 : exec .stepRxerr (up .cWait 1) =
    .next { up .cEnd 1 with
      roundErr := true, out := [.pollDone .oilPressure .transportError none], ret := rep .transportError none } := by rfl

/-! ### The round and the record (vectors S1 to S13), start and stop (B2 to B5) -/

theorem test_S1 : exec .stepTop { up .cTop 3 with roundOk := true, roundErr := true } =
    .next { up .cIssue 0 with ret := rep .ok none } := by rfl

theorem test_S2 : exec .stepTop (stopped .cTop 0) = .next { stopped .cExit 0 with ret := rep .ok none } := by rfl

theorem test_S3 : exec (.stepPub 0x64) (publishing 2 (.temperature 25)) =
    .next { up .cIssue 3 with
      roundOk := true, ret := rep .ok none
      dash := { Dash.reset with temp := some (.temperature 25), succ := 1, last := some 0x64#64 } } := by rfl

theorem test_S9 : exec (.stepPub 1)
      { publishing 3 (.temperature 25) with dash := { Dash.reset with succ := 0xFFFFFFFF#32 } } =
    .next { up .cEnd 3 with
      roundOk := true, ret := rep .ok none
      dash := { Dash.reset with temp := some (.temperature 25), succ := 0, last := some 1#64 } } := by rfl

theorem test_S7 : exec .stepEnd { up .cEnd 3 with dash := { Dash.reset with err := 7 } } =
    .next { up .cTop 3 with dash := { Dash.reset with err := 8 }, ret := rep .ok none } := by rfl

theorem test_S6 : exec .stepEnd { up .cEnd 3 with roundOk := true } =
    .next { up .cTop 3 with roundOk := true, ret := rep .ok none } := by rfl

theorem test_S5 : exec .stepSnap { publishing 3 (.wheels 5 6 7 8) with dash := { Dash.reset with wheel := some (.wheels 1 2 3 4) } } =
    .next { publishing 3 (.wheels 5 6 7 8) with
      dash := { Dash.reset with wheel := some (.wheels 1 2 3 4) }
      snap := some { Dash.reset with wheel := some (.wheels 1 2 3 4) }
      out := [.snapOut { Dash.reset with wheel := some (.wheels 1 2 3 4) }]
      ret := rep .ok none } := by rfl

theorem test_S11 : exec .stepSnap { stopped .cTop 0 with snap := some Dash.reset } =
    .next { stopped .cTop 0 with rst := .rExit, snap := some Dash.reset, ret := rep .ok none } := by rfl

theorem test_S12 : exec .stepStop (up .cWait 0) = .next { stopped .cWait 0 with ret := rep .ok none } := by rfl

theorem test_B2 : exec .stepStart State.reset = .next { up .cTop 0 with ret := rep .ok none } := by rfl

theorem test_B3 : exec .stepConnfail State.reset =
    .next { State.reset with exit := some .exitFail, out := [.exitOut .exitFail], ret := rep .ok none } := by rfl

theorem test_B4 : exec .stepShutdown { stopped .cExit 0 with rst := .rExit } =
    .next { stopped .cExit 0 with
      rst := .rExit, conn := .connDown, exit := some .exitOk, out := [.disconnect, .exitOut .exitOk]
      ret := rep .ok none } := by rfl

/-- A frame offered before the poll waits for it stays with the host (R210), and a state in which it may be offered. -/
theorem test_frame_outside_a_poll_waits :
    step { up .cIssue 2 with trace := [{ port := .line, bytes := [0x7#8, 0x01#8, 0x20#8, 0x40#8, 0x01#8, 0xC6#8] }] } =
      .next { up .cIssue 2 with held := [resp [0xC6#8]] } ∧
    ({ up .cIssue 2 with held := [resp [0xC6#8]] }).mayOfferHeld = false ∧
    ({ up .cWait 2 with held := [resp [0xC6#8]] }).mayOfferHeld = true := ⟨rfl, by decide, by decide⟩

theorem test_B5 : exec .stepShutdown (stopped .cExit 0) = .next (stopped .cExit 0) := by rfl

/-- Lines of program P1 (section 8), as R87 writes them. -/
theorem test_line_text :
    lineText (.stepRx (resp [0x41#8, 0x38#8])) = "C: RX 01204001 41 38".toList ∧
    lineText (.stepIssue true) = "C: ISSUE ok".toList ∧ lineText .stepSnap = "R: SNAP".toList ∧
    lineText (.stepPub 0x64) = "C: PUB 64".toList ∧ lineText .stepStart = "H: START".toList ∧
    lineText (.stepEnc 2#3) = "ENC 2".toList := by decide

/-! ### Witnesses: states and operands that meet each statement's hypotheses -/

theorem witness_UnknownSelectCodeBuildsNoFrame : 4 ≤ (4#3 : Sel).toNat ∧ 4 ≤ (7#3 : Sel).toNat := by decide

theorem witness_RequestFrameFormat : 3 + (template .wheelSpeeds).length ≤ 7 ∧ (7 : Nat) ≤ 7 := by decide

theorem witness_EmptyFrameIsReportedAndDropped : (resp []).data = [] := rfl

theorem witness_StartFrameOpensItsBuffer :
    (resp [0xB7#8, 1#8]).data = 0xB7#8 :: [1#8] ∧ (0xB7#8).getLsbD 7 = true ∧ (0xB7#8).getLsbD 6 = false := by decide

theorem witness_SingleFrameIsItsOwnPayload :
    (resp [0xF6#8]).data = 0xF6#8 :: [] ∧ (0xF6#8).getLsbD 7 = true ∧ (0xF6#8).getLsbD 6 = true := by decide

theorem witness_ContinuationAppendsItsDeclaredBytes :
    (resp [0x0F#8, 0xAA#8]).data = 0x0F#8 :: [0xAA#8] ∧ (0x0F#8).getLsbD 7 = false ∧ (0x0F#8).getLsbD 6 = false ∧
    lookupBuf (resp [0x0F#8, 0xAA#8]).id (opened [0x88#8]).reasm = some [0x88#8] := by decide

theorem witness_EndFrameCompletesThePayload :
    (resp [0x40#8, 0x11#8]).data = 0x40#8 :: [0x11#8] ∧ (0x40#8).getLsbD 7 = false ∧ (0x40#8).getLsbD 6 = true ∧
    lookupBuf (resp [0x40#8, 0x11#8]).id (opened [0x88#8]).reasm = some [0x88#8] := by decide

theorem witness_FrameWithNoOpenBufferIsAViolation :
    (resp [0x45#8, 1#8]).data = 0x45#8 :: [1#8] ∧ (0x45#8).getLsbD 7 = false ∧
    lookupBuf (resp [0x45#8, 1#8]).id State.reset.reasm = none := by decide

theorem witness_ReassemblyKeysAreIndependent_other_key :
    (∃ t, exec (.stepReasm (resp [0x80#8])) State.reset = .next t) ∧ (0x123#29 : Ident) ≠ (resp [0x80#8]).id :=
  ⟨⟨_, rfl⟩, by decide⟩

theorem witness_ReassemblyKeysAreIndependent_own_key :
    let s' : State := { State.reset with reasm := [(0x123#29, [0x80#8])] }
    lookupBuf key State.reset.reasm = lookupBuf key s'.reasm ∧
    (∃ t, exec (.stepReasm (resp [0x80#8])) State.reset = .next t) ∧ ∃ t', exec (.stepReasm (resp [0x80#8])) s' = .next t' :=
  ⟨rfl, ⟨_, rfl⟩, ⟨_, rfl⟩⟩

theorem witness_ReassemblyKeysAreIndependent_poll :
    (∃ t, exec (.stepRx (resp [0x80#8])) (up .cWait 0) = .next t) ∧ (0x123#29 : Ident) ≠ 0x01204001#29 ∧
    (∃ t, exec (.stepRx (sent 0x05#8)) (up .cWait 0) = .next t) ∧ (sent 0x05#8).id ≠ 0x01204001#29 :=
  ⟨⟨_, rfl⟩, by decide, ⟨_, rfl⟩, by decide⟩

theorem witness_PortRowsAgreeWithTraceLines :
    (decode defaultConfig [] ⟨.encIn, [4#8]⟩ = .ok (.encUnknown 4#3) ∧
      decode defaultConfig [] ⟨.line, [0#8, 4#8]⟩ = .ok (.stepEnc 4#3)) ∧
    (decode defaultConfig [] ⟨.reasmIn, [0#8, 0#8, 0#8, 0#8]⟩ = .ok (.reasmEmpty ⟨true, 0, []⟩) ∧
      decode defaultConfig [] ⟨.line, [1#8, 0#8, 0#8, 0#8, 0#8]⟩ = .ok (.stepReasm ⟨true, 0, []⟩)) ∧
    (decode defaultConfig [] ⟨.decIn, []⟩ = .ok (.decShort []) ∧
      decode defaultConfig [] ⟨.line, [2#8]⟩ = .ok (.stepDec [])) := by
  refine ⟨⟨?_, ?_⟩, ⟨?_, ?_⟩, ⟨?_, ?_⟩⟩ <;> rfl

/-- A start frame, then an interposed frame on another key, a continuation, and an end frame. -/
theorem witness_PayloadIsStartFrameAndContributions :
    let f0 := resp [0x87#8, 1#8]
    let fm := resp [0x41#8, 3#8]
    let fs := [({ ext := true, id := 0x123#29, data := [0xC0#8] } : Frame), resp [0x01#8, 2#8]]
    frameStart f0 = true ∧ frameEnd f0 = false ∧ fm.id = f0.id ∧ fm.data ≠ [] ∧ frameStart fm = false ∧
    frameEnd fm = true ∧ ∀ f ∈ fs, f.id = f0.id → frameStart f = false ∧ frameEnd f = false := by decide

/-- A timeout (no frame), a continuation at the port, one that a poll takes, and one and a start frame offered outside a
poll. -/
theorem witness_OpenBufferSurvivesUntilStartOrEnd :
    let w := { up .cWait 2 with reasm := [(key, [0x88#8])] }
    let f := resp [1#8, 2#8]
    Instr.wf w.cfg .stepTmo = true ∧ Instr.wf w.cfg (.reasmCont f) = true ∧ Instr.wf w.cfg (.stepRx f) = true ∧
    lookupBuf key w.reasm = some [0x88#8] ∧ lookupBuf key (opened [0x88#8]).reasm = some [0x88#8] ∧
    presented .stepTmo = none ∧ presented (.reasmCont f) = some f ∧ presented (.stepRx f) = some f ∧ f.id = key ∧
    frameStart f = false ∧ frameEnd f = false ∧ w.cst = .cWait ∧ f.ext = true ∧ (opened [0x88#8]).cst ≠ .cWait ∧
    (∃ t, exec .stepTmo w = .next t) ∧ (∃ t, exec (.reasmCont f) w = .next t) ∧ (∃ t, exec (.stepRx f) w = .next t) ∧
    (∃ t, exec (.stepRx f) (opened [0x88#8]) = .next t) ∧
    Instr.wf defaultConfig (.stepRx (resp [0x80#8])) = true ∧
    ∃ t, exec (.stepRx (resp [0x80#8])) (opened [0x88#8]) = .next t := by
  refine ⟨?_, ?_, ?_, ?_, ?_, ?_, ?_, ?_, ?_, ?_, ?_, ?_, ?_, ?_, ⟨_, rfl⟩, ⟨_, rfl⟩, ⟨_, rfl⟩, ⟨_, rfl⟩, ?_, ⟨_, rfl⟩⟩ <;>
    decide

theorem witness_PayloadUnderSixBytesIsTooShort : ([0#8, 0#8, 0#8, 0#8, 0#8] : Payload).length < 6 ∧ ([] : Payload).length < 6 := by
  decide

/-- Exactly 9 bytes; and 6 and 8 bytes of the second clause. -/
theorem witness_DecPumpReadsTwoSignedFields :
    256 * (0x00#8).toNat + (0x05#8).toNat = State.reset.cfg.opcode.pump.toNat ∧
    ([] : List Byte).length ≤ 2 ∧ ([0#8, 0#8] : List Byte).length ≤ 2 := by decide

theorem witness_DecPressureReadsOneUnsignedByte :
    State.reset.cfg.wf = true ∧ 256 * (0x00#8).toNat + (0x03#8).toNat = State.reset.cfg.opcode.pressure.toNat := by decide

theorem witness_DecTemperatureReadsOneSignedByte :
    State.reset.cfg.wf = true ∧ 256 * (0x00#8).toNat + (0x02#8).toNat = State.reset.cfg.opcode.temperature.toNat := by decide

/-- 14 bytes exactly; and 6 and 13 bytes of the second clause. -/
theorem witness_DecWheelReadsFourFieldsOfOnePayload :
    State.reset.cfg.wf = true ∧ 256 * (0x00#8).toNat + (0x06#8).toNat = State.reset.cfg.opcode.wheels.toNat ∧
    ([] : List Byte).length ≤ 7 ∧ (List.replicate 7 0#8).length ≤ 7 := by decide

theorem witness_UnknownOperationCodeDecodesToNothing :
    let op := 256 * (0x01#8).toNat + (0x02#8).toNat
    op ≠ State.reset.cfg.opcode.pump.toNat ∧ op ≠ State.reset.cfg.opcode.pressure.toNat ∧
    op ≠ State.reset.cfg.opcode.temperature.toNat ∧ op ≠ State.reset.cfg.opcode.wheels.toNat := by decide

theorem witness_DecReadsOnlyItsOperandAndTheConstants :
    State.reset.cfg = (up .cWait 1).cfg ∧
    Instr.decPump [] ∈ [Instr.decShort [], .decPump [], .decPres [], .decTemp [], .decWheel [], .decUnknown []] := by decide

/-- Two readers of 6 bytes that differ in bytes 1 and 6. -/
theorem witness_DecoderReadsNoByteOutOfRange :
    ∀ i, i < 6 → i < 14 → i ≠ 1 → i ≠ 2 →
      byteAt [0xC6#8, 0#8, 0#8, 0#8, 2#8, 9#8] i = byteAt [0xC6#8, 7#8, 0#8, 0#8, 2#8, 9#8, 5#8] i := by decide

theorem witness_StoredPayloadDecodesAlike : 14 ≤ 14 ∧ 14 ≤ 15 := by decide

theorem witness_PhysicalValuesAreExactAndBounded :
    readingInRange (.pump (-32768) 32767) = true ∧ readingInRange (.pressure 255) = true ∧
    readingInRange (.temperature (-128)) = true ∧ readingInRange (.wheels 65535 0 0 65535) = true := by decide

theorem witness_IssueSendsTheRequestAndWaits : (up .cIssue 0).cst = .cIssue := rfl

theorem witness_RxReassemblesDecodesAndAccepts :
    (up .cWait 0).cst = .cWait ∧ (sent 0x05#8).id ≠ 0x01204001#29 ∧
    ({ ext := false, id := key, data := [] } : Frame).ext = false ∧ (resp []).ext = true ∧ (resp []).id = 0x01204001#29 := by
  decide

/-- A frame that completes a reading the poll accepts, and one whose reading is of another kind. -/
theorem witness_RxReassemblesDecodesAndAccepts_accept :
    (up .cWait 2).accepts (.temperature 25) = true ∧ (up .cWait 1).accepts (.temperature 25) = false := by decide

theorem witness_KindCheckOfAReading :
    State.reset.cfg.policy = .discard ∧
    { State.reset with cfg := { defaultConfig with policy := .acceptEmbedded } }.cfg.policy = .acceptEmbedded := by decide

theorem witness_TimeoutEndsThePollAndGoesOn :
    (up .cWait 2).cst = .cWait ∧ (up .cWait 2).idx.val < 3 ∧ (up .cWait 3).cst = .cWait ∧ (up .cWait 3).idx = 3 := by decide

theorem witness_ReceiveFailureEndsPollAndRound : (up .cWait 1).cst = .cWait := rfl

theorem witness_WaitAdmitsOnlyFramesFailureAndTimeout :
    (up .cWait 0).cst = .cWait ∧ agentOf .stepTmo = .collector ∧ (∃ t, exec .stepTmo (up .cWait 0) = .next t) ∧
    (up .cPub 0).cst ≠ .cWait :=
  ⟨rfl, rfl, ⟨_, rfl⟩, by decide⟩

theorem witness_AbsorbedStatusesKeepThePollWaiting :
    (up .cWait 2).cst = .cWait ∧
    (∃ t rp, exec (.stepRx (resp [0x05#8])) (up .cWait 2) = .next t ∧ t.ret = some rp ∧ rp.status = .protocolViolation) ∧
    (∃ t rp, exec (.stepRx (resp [])) (up .cWait 2) = .next t ∧ t.ret = some rp ∧ rp.status = .emptyFrame) ∧
    (∃ t rp, exec (.stepRx (resp [0xC0#8])) (up .cWait 2) = .next t ∧ t.ret = some rp ∧ rp.status = .decodeTooShort) ∧
    (∃ t rp, exec (.stepRx (resp [0xC6#8, 0#8, 0#8, 0#8, 7#8, 1#8])) (up .cWait 2) = .next t ∧ t.ret = some rp ∧
      rp.status = .unknownOperation) ∧
    (∃ t rp, exec (.stepRx (resp [0xC6#8, 0#8, 0#8, 0#8, 3#8, 1#8])) (up .cWait 2) = .next t ∧ t.ret = some rp ∧
      rp.status = .kindMismatch) :=
  ⟨rfl, ⟨_, _, rfl, rfl, rfl⟩, ⟨_, _, rfl, rfl, rfl⟩, ⟨_, _, rfl, rfl, rfl⟩, ⟨_, _, rfl, rfl, rfl⟩, ⟨_, _, rfl, rfl, rfl⟩⟩

theorem witness_TopStartsARoundOrLeavesTheLoop :
    (up .cTop 0).cst = .cTop ∧ (up .cTop 0).run = true ∧ (stopped .cTop 0).cst = .cTop ∧ (stopped .cTop 0).run = false := by
  decide

theorem witness_PublishWritesOneGroupCountAndStamp :
    let s := publishing 2 (.temperature 25)
    let u := publishing 3 (.wheels 1 2 3 4)
    s.cst = .cPub ∧ s.pend = some (.temperature 25) ∧ s.idx.val < 3 ∧ u.cst = .cPub ∧ u.pend = some (.wheels 1 2 3 4) ∧
    u.idx = 3 := by decide

theorem witness_EachKindHasItsOwnFieldGroup :
    ∀ r ∈ [Reading.temperature 1, .pressure 1, .pump 1 1, .wheels 1 1 1 1],
      (publishing 0 r).cst = .cPub ∧ (publishing 0 r).pend = some r ∧ ∃ t, exec (.stepPub 1) (publishing 0 r) = .next t :=
  fun _ _ => ⟨rfl, rfl, ⟨_, rfl⟩⟩

theorem witness_RoundEndCountsAnErrorRoundOnce :
    (up .cEnd 3).cst = .cEnd ∧ (up .cEnd 3).roundOk = false ∧ ({ up .cEnd 3 with roundErr := true }).roundErr = true ∧
    ({ up .cEnd 3 with roundOk := true }).roundErr = false ∧ ({ up .cEnd 3 with roundOk := true }).roundOk = true := by decide

theorem witness_OnlyPublishAndRoundEndTouchTheRecord :
    (∃ t, exec .stepEnd (up .cEnd 3) = .next t ∧ t.dash ≠ (up .cEnd 3).dash) ∧
    (agentOf .stepTmo = .collector ∧ (∀ n, Instr.stepTmo ≠ .stepPub n) ∧ Instr.stepTmo ≠ .stepEnd ∧
      ∃ t, exec .stepTmo (up .cWait 0) = .next t) :=
  ⟨⟨_, rfl, by decide⟩, rfl, by simp, by decide, ⟨_, rfl⟩⟩

theorem witness_SnapshotCopiesTheWholeRecord :
    (up .cTop 0).rst = .rTop ∧ (up .cTop 0).run = true ∧ (stopped .cTop 0).rst = .rTop ∧ (stopped .cTop 0).run = false := by
  decide

theorem witness_RendererWritesNeitherRecordNorRun :
    agentOf .stepSnap = .renderer ∧ (∃ t, exec .stepSnap (up .cTop 0) = .next t) ∧ (up .cTop 0).conn ≠ .connNone ∧
    ∃ t, exec .stepStop (up .cTop 0) = .next t ∧ t.run ≠ (up .cTop 0).run :=
  ⟨rfl, ⟨_, rfl⟩, by decide, _, rfl, by decide⟩

theorem witness_SnapshotsWithNoCollectorStepBetweenAreEqual :
    let s := up .cTop 0
    let is := [Instr.encPump, .stepReasm (resp [0x80#8])]
    (∀ i ∈ is, agentOf i ≠ .collector) ∧ s.rst = .rTop ∧ s.run = true ∧
    ∃ t u v, exec .stepSnap s = .next t ∧ execAll is t = .next u ∧ u.rst = .rTop ∧ u.run = true ∧
      exec .stepSnap u = .next v :=
  ⟨by decide, rfl, rfl, _, _, _, rfl, rfl, rfl, rfl, rfl⟩

theorem witness_StartBringsUpBothLoops : State.reset.conn = .connNone ∧ State.reset.exit = none := by decide

theorem witness_StopClearsRunOnly : (up .cWait 0).conn = .connUp ∧ State.reset.conn ≠ .connUp := by decide

theorem witness_ShutdownReleasesTheTransport :
    let s := { stopped .cExit 0 with rst := .rExit }
    s.cst = .cExit ∧ s.rst = .rExit ∧ s.conn = .connUp := by decide

theorem witness_RunIsNeverSetAgain :
    (State.reset.conn = .connNone ∧ State.reset.exit = none ∧ (up .cTop 0).conn = .connUp ∧ (up .cTop 0).cst = .cTop ∧
      (up .cTop 0).rst = .rTop) ∧
    ((∃ t, exec .stepTop { up .cTop 0 with run := true } = .next t) ∧
      ∃ t, exec .stepSnap { up .cTop 0 with run := true } = .next t) ∧
    (State.reset.run = false ∧ ∃ t, exec .stepStart State.reset = .next t ∧ t.run = true) ∧
    ((up .cTop 0).run = true ∧ ∃ t, exec .stepStop (up .cTop 0) = .next t ∧ t.run = false) ∧
    (∃ t, exec .stepTmo (up .cWait 0) = .next t) ∧
    ((stopped .cTop 0).conn ≠ .connNone ∧ (stopped .cTop 0).run = false ∧
      ∃ t, execAll [.stepTop, .stepSnap, .stepShutdown, .stepStart] (stopped .cTop 0) = .next t) :=
  ⟨by decide, ⟨⟨_, rfl⟩, _, rfl⟩, ⟨rfl, _, rfl, rfl⟩, ⟨rfl, _, rfl, rfl⟩, ⟨_, rfl⟩, by decide, rfl, _, rfl⟩

theorem witness_SecondPollAloneSetsTheFaultMarkForGood :
    (up .cWait 1).cst = .cWait ∧ (∃ t, exec (.stepIssue true) (up .cWait 1) = .next t ∧ t.fault ≠ (up .cWait 1).fault) ∧
    ({ up .cWait 1 with fault := some .pollBusy }).fault = some .pollBusy :=
  ⟨rfl, ⟨_, rfl, by decide⟩, rfl⟩

theorem witness_ConstantsAreNeverWrittenAndOutputsOnlyGrow :
    (∃ t, exec .stepRxerr (up .cWait 0) = .next t) ∧ ∃ t, exec (.stepRx (resp [])) (up .cIssue 0) = .next t :=
  ⟨⟨_, rfl⟩, _, rfl⟩

/-- Right after reset every step but the two connect results is not enabled; a state in which those are not. -/
theorem witness_StepsNotEnabledDoNothing :
    (let s := State.reset
     s.cst ≠ .cTop ∧ s.cst ≠ .cIssue ∧ s.cst ≠ .cWait ∧ s.cst ≠ .cPub ∧ s.cst ≠ .cEnd ∧ s.rst ≠ .rTop ∧ s.conn ≠ .connUp) ∧
    (up .cTop 0).conn ≠ .connNone ∧ (up .cTop 0).cst ≠ .cExit := by decide

theorem witness_AfterResetOnlyTheConnectResultIsEnabled :
    agentOf .stepTop ≠ .standAlone ∧ agentOf .stepStart ≠ .standAlone ∧ agentOf (.stepRx (resp [])) ≠ .standAlone := by
  decide

theorem witness_ReservedStepCodeIsRefused :
    State.reset.cst ≠ .cWait ∧ ({ State.reset with trace := [{ port := .line, bytes := [0xF#8, 0x00#8] }] }).trace =
      { port := .line, bytes := 0xF#8 :: [0x00#8] } :: [] ∧ 16 ≤ (0x10#8 : Byte).toNat := by decide

/-- No poll waiting; a poll waiting with no frame kept; and one with a frame kept. -/
theorem witness_StepRunsTheDecodedOffer :
    State.reset.cst ≠ .cWait ∧ (up .cWait 0).held = [] ∧ State.reset.trace = [] ∧
    decode defaultConfig [] { port := .line, bytes := [0x3#8] } = .ok .stepStart ∧
    decode defaultConfig [] { port := .line, bytes := [0xF#8] } = .error .reservedStepCode ∧
    ({ up .cWait 0 with held := [resp []] }).cst = .cWait ∧ ({ up .cWait 0 with held := [resp []] }).held ≠ [] := by
  refine ⟨by decide, rfl, rfl, rfl, rfl, rfl, by decide⟩

theorem witness_DecodeOfEncodeIsTheInstruction :
    defaultConfig.wf = true ∧ Instr.wf defaultConfig (.reasmEnd (resp (List.replicate 8 0x4F#8))) = true ∧
    rowFits [(key, [0x88#8])] (.reasmEnd (resp (List.replicate 8 0x4F#8))) = true := by decide

theorem witness_DecodedInstructionsAreWellFormed :
    defaultConfig.wf = true ∧
    decode defaultConfig [] { port := .line, bytes := [0x7#8, 0#8, 0#8, 0#8, 0#8] } = .ok (.stepRx ⟨true, 0, []⟩) ∧
    ∀ n, Instr.stepRx ⟨true, 0, []⟩ ≠ .stepPub n := ⟨by decide, rfl, by simp⟩

/-! ### Witnesses that need the invariant -/

theorem tableOk_empty : TableOk [] := ⟨List.Pairwise.nil, fun k b h => by simp [lookupBuf] at h⟩

theorem dashOk_reset : DashOk Dash.reset :=
  ⟨fun k r h => by cases k <;> simp [groupOf, Dash.reset] at h, fun _ k => by cases k <;> rfl⟩

/-- The invariant of a connected state with the record at reset and no pending reading, whatever the outputs and the
offers to come. -/
theorem inv_connected (c : CollectorState) (i : Fin 4) (b : Bool) (os : List Output) (tr : List Offer) (hc : c ≠ .cInit)
    (hp : c ≠ .cPub) (he : c = .cExit → b = false) : Inv { up c i with run := b, out := os, trace := tr } :=
  { config := test_wf_default_config
    table := tableOk_empty
    dash := dashOk_reset
    snapshot := fun x h => by simp [State.reset] at h
    control := ⟨by simp, by simp [hc, State.reset], by simp, he, by simp⟩
    collector := ⟨by simp [State.reset, hp], by simp [State.reset], by simp [State.reset]⟩
    kept := by simp [State.reset] }

theorem inv_reset : Inv State.reset :=
  { config := test_wf_default_config
    table := tableOk_empty
    dash := dashOk_reset
    snapshot := fun x h => by simp [State.reset] at h
    control := ⟨by simp [State.reset], by simp [State.reset], by simp [State.reset], by simp [State.reset],
      by simp [State.reset]⟩
    collector := ⟨by simp [State.reset], by simp [State.reset], by simp [State.reset]⟩
    kept := by simp [State.reset] }

theorem witness_FailedConnectEndsTheRun :
    State.reset.conn = .connNone ∧ State.reset.exit = none ∧ Inv State.reset ∧
    ∀ i ∈ [Instr.stepStart, .stepTop, .stepStop], agentOf i ≠ .standAlone := ⟨rfl, rfl, inv_reset, by decide⟩

theorem witness_RoundPollsEachSensorAtMostOnceInOrder :
    Inv (up .cIssue 0) ∧ Instr.stepTop ∉ [Instr.stepIssue true, .stepTmo, .stepIssue false] ∧
    ∃ t, execAll [.stepIssue true, .stepTmo, .stepIssue false] (up .cIssue 0) = .next t :=
  ⟨inv_connected .cIssue 0 true [] [] (by decide) (by decide) (by decide), by decide, _, rfl⟩

theorem witness_AfterStopTwelveStepsReachTheCleanEnd :
    Inv (stopped .cIssue 0) ∧ (stopped .cIssue 0).conn = .connUp ∧ (stopped .cIssue 0).run = false :=
  ⟨inv_connected .cIssue 0 false [] [] (by decide) (by decide) (by decide), rfl, rfl⟩

theorem witness_AfterStopAtMostFourMoreRequests :
    Inv (stopped .cIssue 0) ∧ (stopped .cIssue 0).conn = .connUp ∧ (stopped .cIssue 0).run = false ∧
    ∃ t, execAll [.stepIssue true, .stepTmo, .stepIssue true] (stopped .cIssue 0) = .next t :=
  ⟨inv_connected .cIssue 0 false [] [] (by decide) (by decide) (by decide), rfl, rfl, _, rfl⟩

theorem witness_EveryStepKeepsTheInvariant :
    let s := { up .cWait 2 with trace := [{ port := .line, bytes := [0x8#8] }] }
    Inv s ∧ ∃ t, step s = .next t :=
  ⟨inv_connected .cWait 2 true [] _ (by decide) (by decide) (by decide), _, rfl⟩

theorem witness_PollBalanceAndSuccessCountKept :
    let s := { up .cWait 2 with out := [.tx (sent 0x02#8)], trace := [{ port := .line, bytes := [0x8#8] }] }
    Inv s ∧ PollBalance s ∧ SuccessCount s ∧ ∃ t, step s = .next t :=
  ⟨inv_connected .cWait 2 true _ _ (by decide) (by decide) (by decide), rfl, rfl, _, rfl⟩

/-- A reading pending that a poll ended with, and the publish that comes next. -/
theorem witness_EverySnapshotHoldsOnlyEarlierReadings :
    let s := { publishing 2 (.temperature 25) with
      out := [.pollDone .oilTemperature .ok (some (.temperature 25))]
      trace := [{ port := .line, bytes := [0xA#8, 0x64#8] }] }
    Provenance s ∧ ∃ t, step s = .next t := by
  refine ⟨⟨fun k r h => ?_, fun r h => ?_, fun x h => ?_, fun before x rest h => ?_⟩, _, rfl⟩
  · cases k <;> simp [State.reset, Dash.reset, groupOf] at h
  · obtain rfl : Reading.temperature 25 = r := by simpa using h
    exact ⟨.oilTemperature, by simp⟩
  · simp [State.reset] at h
  · cases before <;> simp at h

end Sys2Proof.Tests
end

/-! ### The request frame (R7, R70, R71) -/

namespace Sys2Proof.Machine

/-- R71: the templates the block holds are all four bytes long. -/
@[simp] theorem template_length (k : Sensor) : (template k).length = 4 := by cases k <;> rfl

/-- R70 with R71 worked out: with every template four bytes long the prefix is `0xCD` and one byte of padding is left. -/
theorem requestFrame_eq (k : Sensor) :
    requestFrame k =
      { ext := true, id := 0x000FFFFE#29, data := [0xCD#8, 0x1A#8] ++ template k ++ [0x01#8, 0x00#8] } := by
  simp [requestFrame, reqId, lenBase, moduleId, respCount, frameBytes]

/-- `STEP.ENC` of a sensor's own select code answers that sensor's request frame and changes nothing else (R100, R102). -/
theorem exec_stepEnc_selOf (s : State) (k : Sensor) :
    exec (.stepEnc (selOf k)) s = .next (s.answer .ok (some (.frame (requestFrame k)))) := by
  simp [exec, execStepEnc, State.encodeRequest, enc_selOf]

/-- Settles O3: the frame is `requestFrame k`, and each field is read off `requestFrame_eq`, the templates' lengths
placing the bytes that follow them. -/
theorem requestFrameFormat : Obligations.RequestFrameFormat := by
  refine ⟨⟨rfl, rfl, rfl, rfl⟩, fun s k => ⟨requestFrame k, exec_stepEnc_selOf s k, ?_⟩⟩
  rw [requestFrame_eq, template_length]
  refine ⟨rfl, rfl, by simp, rfl, rfl, rfl, rfl, ?template, ?count, fun j hlo hhi => ?padding⟩
  case template => simp
  case count => simp
  case padding =>
    obtain rfl : j = 7 := by omega
    simp

end Sys2Proof.Machine

/-! ### The field groups of the record (R33) -/

namespace Sys2Proof.Machine

/-- `PUB` with a reading pending (R174): the record is published to, then `next_poll()`. -/
theorem exec_stepPub_of_pending {s : State} {r : Reading} (hc : s.cst = .cPub) (hp : s.pend = some r) (n : Nat) :
    exec (.stepPub n) s =
      .next ({ s with dash := s.dash.publish r n, roundOk := true, pend := none }.answer .ok none).nextPoll := by
  simp [exec, execStepPub, hc, hp]

/-- A publish writes the group of its reading's kind, and every other group is as it was (R33). -/
theorem groupOf_dash_of_stepPub {s t : State} {r : Reading} {n : Nat} (hc : s.cst = .cPub) (hp : s.pend = some r)
    (h : exec (.stepPub n) s = .next t) (k : Sensor) :
    groupOf t.dash k = if k = kindOf r then some r else groupOf s.dash k := by
  obtain rfl := Host.Outcome.next.inj ((exec_stepPub_of_pending hc hp n).symm.trans h)
  simp [groupOf_setGroup]

/-- Settles O34: the four groups are the record's four fields, each read off `groupOf_dash_of_stepPub`. -/
theorem eachKindHasItsOwnFieldGroup : Obligations.EachKindHasItsOwnFieldGroup := by
  intro s t r n hc hp h
  have group := groupOf_dash_of_stepPub hc hp h
  have temp := group .oilTemperature
  have pres := group .oilPressure
  have curr := group .pumpCurrent
  have wheel := group .wheelSpeeds
  cases r with
  | temperature celsius => exact ⟨temp, pres, curr, wheel⟩
  | pressure raw => exact ⟨pres, temp, curr, wheel⟩
  | pump pump solenoid => exact ⟨curr, temp, pres, wheel⟩
  | wheels fr fl rr rl => exact ⟨wheel, temp, pres, curr⟩

/-! ### What writes the record, `RUN` and `CONN` (R35, R37, R39) -/

@[simp] theorem State.takePayload_dash (s : State) (p : Payload) : (s.takePayload p).dash = s.dash := by
  rcases takePayload_cases s p with ⟨st, -, -, e⟩ | ⟨r, -, -, -, e⟩ | ⟨r, -, -, e⟩ <;> simp [e]

@[simp] theorem State.takePayload_run (s : State) (p : Payload) : (s.takePayload p).run = s.run := by
  rcases takePayload_cases s p with ⟨st, -, -, e⟩ | ⟨r, -, -, -, e⟩ | ⟨r, -, -, e⟩ <;> simp [e]

@[simp] theorem State.takePayload_conn (s : State) (p : Payload) : (s.takePayload p).conn = s.conn := by
  rcases takePayload_cases s p with ⟨st, -, -, e⟩ | ⟨r, -, -, -, e⟩ | ⟨r, -, -, e⟩ <;> simp [e]

@[simp] theorem State.takeFrame_dash (s : State) (f : Frame) : (s.takeFrame f).dash = s.dash := by
  rcases takeFrame_cases s f with ⟨-, e⟩ | ⟨p, -, e⟩ <;> simp [e]

@[simp] theorem State.takeFrame_run (s : State) (f : Frame) : (s.takeFrame f).run = s.run := by
  rcases takeFrame_cases s f with ⟨-, e⟩ | ⟨p, -, e⟩ <;> simp [e]

@[simp] theorem State.takeFrame_conn (s : State) (f : Frame) : (s.takeFrame f).conn = s.conn := by
  rcases takeFrame_cases s f with ⟨-, e⟩ | ⟨p, -, e⟩ <;> simp [e]

/-- The record is written by `PUB` in `C_PUB` and by `END` in `C_END` alone (R178). -/
theorem exec_dash_cases {s t : State} {i : Instr} (h : exec i s = .next t) :
    t.dash = s.dash ∨ (∃ n, i = .stepPub n ∧ s.cst = .cPub) ∨ (i = .stepEnd ∧ s.cst = .cEnd) := by
  rcases exec_cases h with rfl | ⟨st, v, rfl⟩ | ⟨f, r, -, -, rfl, -⟩ | ⟨-, -, -, rfl⟩ | ⟨-, -, -, rfl⟩ |
    ⟨-, -, -, rfl⟩ | ⟨-, -, -, rfl⟩ | ⟨-, -, rfl⟩ | ⟨-, -, rfl⟩ | ⟨-, -, rfl⟩ | ⟨f, -, -, -, rfl⟩ | ⟨-, -, rfl⟩ |
    ⟨-, -, rfl⟩ | ⟨n, r, rfl, hc, -, -⟩ | ⟨rfl, hc, -⟩ | ⟨-, -, -, rfl⟩ | ⟨-, -, -, rfl⟩ | ⟨-, -, rfl⟩ |
    ⟨-, -, -, -, rfl⟩ | ⟨f, -, -, rfl⟩ <;>
    simp [State.reasmReport, *]

/-- `RUN` and `CONN` are written by `START`, `STOP` and `SHUTDOWN` alone (R35, R39). -/
theorem exec_run_conn_cases {s t : State} {i : Instr} (h : exec i s = .next t) :
    (t.run = s.run ∧ t.conn = s.conn) ∨
    (i = .stepStart ∧ s.conn = .connNone ∧ t.run = true ∧ t.conn = .connUp) ∨
    (i = .stepStop ∧ t.run = false ∧ t.conn = s.conn) ∨
    (i = .stepShutdown ∧ t.run = s.run ∧ t.conn = .connDown) := by
  rcases exec_cases h with rfl | ⟨st, v, rfl⟩ | ⟨f, r, -, -, rfl, -⟩ | ⟨rfl, hn, -, rfl⟩ | ⟨-, -, -, rfl⟩ |
    ⟨-, -, -, rfl⟩ | ⟨-, -, -, rfl⟩ | ⟨-, -, rfl⟩ | ⟨-, -, rfl⟩ | ⟨-, -, rfl⟩ | ⟨f, -, -, -, rfl⟩ | ⟨-, -, rfl⟩ |
    ⟨-, -, rfl⟩ | ⟨n, r, -, -, -, rfl⟩ | ⟨-, -, rfl⟩ | ⟨-, -, -, rfl⟩ | ⟨-, -, -, rfl⟩ | ⟨rfl, -, rfl⟩ |
    ⟨rfl, -, -, -, rfl⟩ | ⟨f, -, -, rfl⟩ <;>
    simp [State.reasmReport, *]

/-- The renderer's one step is `SNAP` (R180). -/
theorem agentOf_eq_renderer_iff (i : Instr) : agentOf i = .renderer ↔ i = .stepSnap := by
  cases i <;> simp [agentOf]

/-- Settles O39: the renderer's step is no writer of the record or of `RUN`, and once connected `START` is not enabled, so
that `STOP` is the only writer of `RUN` left. -/
theorem rendererWritesNeitherRecordNorRun : Obligations.RendererWritesNeitherRecordNorRun := by
  refine ⟨fun s t i hi h => ?renderer, fun s t i hn h hne => ?afterStart⟩
  case renderer =>
    obtain rfl := (agentOf_eq_renderer_iff i).mp hi
    have hdash : t.dash = s.dash := by simpa using exec_dash_cases h
    have hrun : t.run = s.run ∧ t.conn = s.conn := by simpa using exec_run_conn_cases h
    exact ⟨hdash, hrun.1⟩
  case afterStart =>
    rcases exec_run_conn_cases h with ⟨hrun, -⟩ | ⟨-, hc, -, -⟩ | ⟨hi, -, -⟩ | ⟨-, hrun, -⟩
    · exact absurd hrun hne
    · exact absurd hc hn
    · exact hi
    · exact absurd hrun hne

/-! ### Who reads `RUN` (R35, R171, R180) -/

/-- `TOP` with `RUN` true starts a round (R171). -/
theorem exec_stepTop_of_run {s : State} (hc : s.cst = .cTop) (hr : s.run = true) :
    exec .stepTop s =
      .next ({ s with idx := 0, roundOk := false, roundErr := false, pend := none, cst := .cIssue }.answer .ok none) := by
  simp [exec, execStepTop, hc, hr]

/-- `TOP` with `RUN` false leaves the collector's loop (R171). -/
theorem exec_stepTop_of_not_run {s : State} (hc : s.cst = .cTop) (hr : s.run = false) :
    exec .stepTop s = .next ({ s with cst := .cExit }.answer .ok none) := by
  simp [exec, execStepTop, hc, hr]

/-- `SNAP` with `RUN` true copies the record and presents it (R180). -/
theorem exec_stepSnap_of_run {s : State} (hc : s.rst = .rTop) (hr : s.run = true) :
    exec .stepSnap s = .next (({ s with snap := some s.dash, rst := .rTop }.emit [.snapOut s.dash]).answer .ok none) := by
  simp [exec, execStepSnap, hc, hr]

/-- `SNAP` with `RUN` false leaves the renderer's loop (R180). -/
theorem exec_stepSnap_of_not_run {s : State} (hc : s.rst = .rTop) (hr : s.run = false) :
    exec .stepSnap s = .next ({ s with rst := .rExit }.answer .ok none) := by
  simp [exec, execStepSnap, hc, hr]

/-! Running a step from the other value of `RUN`: every operation but the two loop tops and `RUN`'s two writers commutes
with `State.withRun`. -/

/-- The state with `RUN` at a given value. -/
def State.withRun (s : State) (b : Bool) : State := { s with run := b }

@[simp] theorem State.withRun_cfg (s : State) (b : Bool) : (s.withRun b).cfg = s.cfg := rfl
@[simp] theorem State.withRun_reasm (s : State) (b : Bool) : (s.withRun b).reasm = s.reasm := rfl
@[simp] theorem State.withRun_cst (s : State) (b : Bool) : (s.withRun b).cst = s.cst := rfl
@[simp] theorem State.withRun_pend (s : State) (b : Bool) : (s.withRun b).pend = s.pend := rfl

@[simp] theorem State.withRun_polled (s : State) (b : Bool) : (s.withRun b).polled = s.polled := rfl
@[simp] theorem State.withRun_accepts (s : State) (b : Bool) (r : Reading) :
    (s.withRun b).accepts r = s.accepts r := rfl
@[simp] theorem State.withRun_emit (s : State) (b : Bool) (os : List Output) :
    (s.withRun b).emit os = (s.emit os).withRun b := rfl
@[simp] theorem State.withRun_answer (s : State) (b : Bool) (st : Status) (v : Option Value) :
    (s.withRun b).answer st v = (s.answer st v).withRun b := rfl
@[simp] theorem State.withRun_absorb (s : State) (b : Bool) (r : Reassembled) :
    (s.withRun b).absorb r = (s.absorb r).withRun b := rfl
@[simp] theorem State.withRun_reasmReport (s : State) (b : Bool) (r : Reassembled) :
    (s.withRun b).reasmReport r = (s.reasmReport r).withRun b := rfl
@[simp] theorem State.withRun_abortRound (s : State) (b : Bool) :
    (s.withRun b).abortRound = s.abortRound.withRun b := rfl
@[simp] theorem State.withRun_pollSucceeds (s : State) (b : Bool) (r : Reading) :
    (s.withRun b).pollSucceeds r = (s.pollSucceeds r).withRun b := rfl
@[simp] theorem State.withRun_keepFrame (s : State) (b : Bool) (f : Frame) :
    (s.withRun b).keepFrame f = (s.keepFrame f).withRun b := rfl

@[simp] theorem State.withRun_nextPoll (s : State) (b : Bool) : (s.withRun b).nextPoll = s.nextPoll.withRun b := by
  by_cases hi : s.idx.val < 3
  · rw [State.nextPoll_more hi, State.nextPoll_more (s := s.withRun b) hi]; rfl
  · rw [State.nextPoll_last hi, State.nextPoll_last (s := s.withRun b) hi]; rfl

@[simp] theorem State.withRun_takePayload (s : State) (b : Bool) (p : Payload) :
    (s.withRun b).takePayload p = (s.takePayload p).withRun b := by
  rcases hd : dec s.cfg p with ⟨_ | r, st⟩
  · simp [State.takePayload, hd]
  · cases ha : s.accepts r <;> simp [State.takePayload, hd, ha]

@[simp] theorem State.withRun_takeFrame (s : State) (b : Bool) (f : Frame) :
    (s.withRun b).takeFrame f = (s.takeFrame f).withRun b := by
  cases hp : (reassemble s.reasm f).payload <;> simp [State.takeFrame, hp]

/-- `TOP` leads to `C_ISSUE` or to `C_EXIT`, as `RUN` says (R171). -/
theorem exec_stepTop_reads_run {s t : State} (hc : s.cst = .cTop) (h : exec .stepTop (s.withRun true) = .next t) :
    exec .stepTop (s.withRun false) ≠ .next (t.withRun false) := by
  rw [exec_stepTop_of_run (s := s.withRun true) hc rfl] at h
  rw [exec_stepTop_of_not_run (s := s.withRun false) hc rfl]
  obtain rfl := Host.Outcome.next.inj h
  intro heq
  have hcst : CollectorState.cExit = .cIssue := congrArg State.cst (Host.Outcome.next.inj heq)
  cases hcst

/-- `SNAP` stays in `R_TOP` or leads to `R_EXIT`, as `RUN` says (R180). -/
theorem exec_stepSnap_reads_run {s t : State} (hc : s.rst = .rTop) (h : exec .stepSnap (s.withRun true) = .next t) :
    exec .stepSnap (s.withRun false) ≠ .next (t.withRun false) := by
  rw [exec_stepSnap_of_run (s := s.withRun true) hc rfl] at h
  rw [exec_stepSnap_of_not_run (s := s.withRun false) hc rfl]
  obtain rfl := Host.Outcome.next.inj h
  intro heq
  have hrst : RendererState.rExit = .rTop := congrArg State.rst (Host.Outcome.next.inj heq)
  cases hrst

/-- A stand-alone operation does not read `RUN`. -/
theorem exec_withRun_of_standAlone {s t : State} {i : Instr} (b : Bool) (ha : agentOf i = .standAlone)
    (h : exec i s = .next t) : exec i (s.withRun b) = .next (t.withRun b) := by
  cases i <;> simp only [agentOf, reduceCtorEq] at ha
  case reasmViolation f =>
    cases hl : lookupBuf f.id s.reasm <;>
      simp only [exec, execReasmViolation, hl, State.withRun_reasm, Host.Outcome.next.injEq] at h ⊢ <;>
      simp [← h]
  all_goals
    obtain rfl := Host.Outcome.next.inj h
    rfl

/-- A step whose enabling condition and two results carry `RUN` along carries it along. -/
theorem next_ite_withRun {c : Prop} [Decidable c] {u v t : State} (b : Bool)
    (h : (if c then .next u else .next v : Host.Outcome State Fault Refusal) = .next t) :
    (if c then .next (u.withRun b) else .next (v.withRun b) : Host.Outcome State Fault Refusal) =
      .next (t.withRun b) := by
  split at h <;> simp_all

/-- `RUN` is read by `TOP` and `SNAP`, and written by `START` and `STOP`; every other step does the same whatever its
value, and leaves it as it is (R35). -/
theorem exec_withRun {s t : State} {i : Instr} (b : Bool) (hTop : i ≠ .stepTop) (hSnap : i ≠ .stepSnap)
    (hStart : i ≠ .stepStart) (hStop : i ≠ .stepStop) (h : exec i s = .next t) :
    exec i (s.withRun b) = .next (t.withRun b) := by
  by_cases ha : agentOf i = .standAlone
  · exact exec_withRun_of_standAlone b ha h
  cases i <;> simp only [agentOf, not_true_eq_false] at ha
  case stepTop => exact absurd rfl hTop
  case stepSnap => exact absurd rfl hSnap
  case stepStart => exact absurd rfl hStart
  case stepStop => exact absurd rfl hStop
  case stepConnfail => exact (next_ite_withRun b h :)
  case stepRxerr => exact (next_ite_withRun b h :)
  case stepEnd => exact (next_ite_withRun b h :)
  case stepShutdown => exact (next_ite_withRun b h :)
  case stepTmo => simpa [exec, execStepTmo] using next_ite_withRun b h
  case stepIssue ok =>
    simp only [exec, execStepIssue, State.withRun_cst] at h ⊢
    split at h
    · cases ok with
      | true => simp only [*, ← Host.Outcome.next.inj h]; rfl
      | false => simp [*, ← Host.Outcome.next.inj h]
    · simp only [*, ← Host.Outcome.next.inj h]; rfl
    · simp [*, ← Host.Outcome.next.inj h]
  case stepRx f =>
    simp only [exec, execStepRx, State.withRun_cst] at h ⊢
    split at h
    · split at h <;> simp [*, ← Host.Outcome.next.inj h]
    · simp [*, ← Host.Outcome.next.inj h]
  case stepPub n =>
    simp only [exec, execStepPub, State.withRun_cst, State.withRun_pend] at h ⊢
    split at h
    · simp only [*, ← Host.Outcome.next.inj h, ← State.withRun_nextPoll]; rfl
    · simp [*, ← Host.Outcome.next.inj h]

/-! ### Once cleared, `RUN` stays false (R35) -/

/-- Once the connect has come up, `CONN` never returns to `none` (R39). -/
theorem exec_conn_ne_none {s t : State} {i : Instr} (hn : s.conn ≠ .connNone) (h : exec i s = .next t) :
    t.conn ≠ .connNone := by
  rcases exec_run_conn_cases h with ⟨-, hc⟩ | ⟨-, hc, -, -⟩ | ⟨-, -, hc⟩ | ⟨-, -, hc⟩
  · exact hc ▸ hn
  · exact absurd hc hn
  · exact hc ▸ hn
  · simp [hc]

/-- After start no step sets `RUN` again. -/
theorem exec_run_stays_false {s t : State} {i : Instr} (hn : s.conn ≠ .connNone) (hr : s.run = false)
    (h : exec i s = .next t) : t.run = false := by
  rcases exec_run_conn_cases h with ⟨hrun, -⟩ | ⟨-, hc, -, -⟩ | ⟨-, hrun, -⟩ | ⟨-, hrun, -⟩
  · exact hrun.trans hr
  · exact absurd hc hn
  · exact hrun
  · exact hrun.trans hr

/-- After start no list of steps sets `RUN` again, by induction on the list. -/
theorem execAll_run_stays_false {is : List Instr} {s t : State} (hn : s.conn ≠ .connNone) (hr : s.run = false)
    (h : execAll is s = .next t) : t.run = false := by
  induction is generalizing s with
  | nil => exact Host.Outcome.next.inj h ▸ hr
  | cons i is ih =>
    obtain ⟨u, hu⟩ := exec_answers_next i s
    rw [execAll_cons hu] at h
    exact ih (exec_conn_ne_none hn hu) (exec_run_stays_false hn hr hu) h

/-- `START`, where it is enabled, sets `RUN` (R236). -/
theorem exec_stepStart_sets_run {s : State} (hc : s.conn = .connNone) (he : s.exit = none) :
    ∃ t, exec .stepStart s = .next t ∧ t.run = true :=
  ⟨_, if_pos ⟨hc, he⟩, rfl⟩

/-- `STOP`, where it is enabled, clears `RUN` (R184). -/
theorem exec_stepStop_clears_run {s : State} (hc : s.conn = .connUp) :
    ∃ t, exec .stepStop s = .next t ∧ t.run = false :=
  ⟨_, if_pos hc, rfl⟩

/-- `START` sets `RUN`, `STOP` clears it, and no other step changes it (R35). -/
theorem exec_run_writers {s t : State} {i : Instr} (h : exec i s = .next t) :
    (s.run = false → t.run = true → i = .stepStart) ∧ (s.run = true → t.run = false → i = .stepStop) := by
  rcases exec_run_conn_cases h with ⟨hrun, -⟩ | ⟨hi, -, hrun, -⟩ | ⟨hi, hrun, -⟩ | ⟨-, hrun, -⟩ <;> simp_all

/-- Settles O46: the writers of `RUN`, its readers, and the induction that keeps it false. -/
theorem runIsNeverSetAgain : Obligations.RunIsNeverSetAgain :=
  ⟨fun _ => exec_stepStart_sets_run, fun _ => exec_stepStop_clears_run, fun _ _ _ => exec_run_writers,
    fun _ _ => exec_stepTop_reads_run, fun _ _ => exec_stepSnap_reads_run, fun _ _ _ => exec_withRun,
    fun _ _ _ => execAll_run_stays_false⟩

end Sys2Proof.Machine

/-! ### The encoder's rows (R100) -/

namespace Sys2Proof.Machine

/-- The row a select code picks at `ENC_IN` is the operation of the trace line with that code (R87). -/
theorem exec_classifySel_eq_stepEnc (s : State) (k : Sensor) :
    exec (classifySel (selOf k)) s = exec (.stepEnc (selOf k)) s := by
  cases k <;> rfl

/-- A sensor's ENC row answers that sensor's request frame and changes nothing else (R100, R102). -/
theorem exec_classifySel_selOf (s : State) (k : Sensor) :
    exec (classifySel (selOf k)) s = .next (s.answer .ok (some (.frame (requestFrame k)))) :=
  (exec_classifySel_eq_stepEnc s k).trans (exec_stepEnc_selOf s k)

/-- Settles O1: each row and each trace line answers its sensor's request frame, whose bytes `requestFrame_eq` gives but
for the template. -/
theorem encBuildsTheFourRequestFrames : Obligations.EncBuildsTheFourRequestFrames := by
  intro s
  have row := exec_classifySel_selOf s
  have line := exec_stepEnc_selOf s
  simp only [requestFrame_eq] at row line
  exact ⟨row .pumpCurrent, line .pumpCurrent, row .oilPressure, line .oilPressure,
    row .oilTemperature, line .oilTemperature, row .wheelSpeeds, line .wheelSpeeds⟩

end Sys2Proof.Machine

/-! ### The reassembler's step by its cases (R110) -/

namespace Sys2Proof.Machine

theorem frameStart_cons {f : Frame} {h : Byte} {tl : List Byte} (hd : f.data = h :: tl) :
    frameStart f = h.getLsbD 7 := by
  simp [frameStart, hd, hdrStart]

theorem frameEnd_cons {f : Frame} {h : Byte} {tl : List Byte} (hd : f.data = h :: tl) :
    frameEnd f = h.getLsbD 6 := by
  simp [frameEnd, hd, hdrEnd]

theorem contribution_nil {f : Frame} (hd : f.data = []) : contribution f = [] := by simp [contribution, hd]

/-- R111: no data bytes. -/
theorem reassemble_of_empty {f : Frame} (hd : f.data = []) (t : Table) : reassemble t f = reassembleEmpty t := by
  simp [reassemble, hd]

/-- R112: S = 1, E = 0. -/
theorem reassemble_of_start {f : Frame} (hs : frameStart f = true) (he : frameEnd f = false) (t : Table) :
    reassemble t f = reassembleStart t f := by
  cases hd : f.data <;> simp_all [frameStart, frameEnd, reassemble]

/-- R113: S = 1, E = 1. -/
theorem reassemble_of_single {f : Frame} (hs : frameStart f = true) (he : frameEnd f = true) (t : Table) :
    reassemble t f = reassembleSingle t f := by
  cases hd : f.data <;> simp_all [frameStart, frameEnd, reassemble]

/-- R114 and R116: S = 0, E = 0, the rule of a continuation with or without a buffer open. -/
theorem reassemble_of_cont {f : Frame} (hd : f.data ≠ []) (hs : frameStart f = false) (he : frameEnd f = false)
    (t : Table) : reassemble t f = reassembleCont t f := by
  cases hd : f.data <;> simp_all [frameStart, frameEnd, reassemble]

/-- R115 and R116: S = 0, E = 1, the rule of an end frame with or without a buffer open. -/
theorem reassemble_of_end {f : Frame} (hs : frameStart f = false) (he : frameEnd f = true) (t : Table) :
    reassemble t f = reassembleEnd t f := by
  cases hd : f.data <;> simp_all [frameStart, frameEnd, reassemble]

/-- R114: with a buffer open a continuation appends. -/
theorem reassembleCont_of_open {t : Table} {f : Frame} {b : List Byte} (hl : lookupBuf f.id t = some b) :
    reassembleCont t f = { table := openBuf f.id (b ++ contribution f) t, payload := none, status := .ok } := by
  simp [reassembleCont, hl]

/-- R115: with a buffer open an end frame completes the payload. -/
theorem reassembleEnd_of_open {t : Table} {f : Frame} {b : List Byte} (hl : lookupBuf f.id t = some b) :
    reassembleEnd t f = { table := closeBuf f.id t, payload := some (b ++ contribution f), status := .ok } := by
  simp [reassembleEnd, hl]

/-- R116: a continuation with no buffer open. -/
theorem reassembleCont_of_idle {t : Table} {f : Frame} (hl : lookupBuf f.id t = none) :
    reassembleCont t f = reassembleViolation t := by
  simp [reassembleCont, hl]

/-- R116: an end frame with no buffer open. -/
theorem reassembleEnd_of_idle {t : Table} {f : Frame} (hl : lookupBuf f.id t = none) :
    reassembleEnd t f = reassembleViolation t := by
  simp [reassembleEnd, hl]

/-- R116: without the start bit and without a buffer open the frame is a violation, whatever the end bit. -/
theorem reassemble_of_idle {t : Table} {f : Frame} (hd : f.data ≠ []) (hs : frameStart f = false)
    (hl : lookupBuf f.id t = none) : reassemble t f = reassembleViolation t := by
  cases he : frameEnd f with
  | false => rw [reassemble_of_cont hd hs he, reassembleCont_of_idle hl]
  | true => rw [reassemble_of_end hs he, reassembleEnd_of_idle hl]

/-! ### The REASM rows and the trace line (R112, R113, R115, R116) -/

@[simp] theorem State.reasmReport_reasm (s : State) (r : Reassembled) : (s.reasmReport r).reasm = r.table := rfl
@[simp] theorem State.reasmReport_out (s : State) (r : Reassembled) :
    (s.reasmReport r).out = s.out ++ eventOf r.status := rfl
@[simp] theorem State.reasmReport_ret (s : State) (r : Reassembled) :
    (s.reasmReport r).ret = some { status := r.status, value := r.payload.map .payload } := rfl

/-- `REASM f` is the reassembler's step on the block's table (R110). -/
theorem exec_stepReasm (s : State) (f : Frame) :
    exec (.stepReasm f) s = .next (s.reasmReport (reassemble s.reasm f)) := rfl

/-- A reassembler step that ends with `OK` writes the table and the report, and pulses no event (R44). -/
theorem State.reasmReport_of_ok {r : Reassembled} (hr : r.status = .ok) (s : State) :
    s.reasmReport r =
      { s with reasm := r.table, ret := some { status := .ok, value := r.payload.map .payload } } := by
  simp [State.reasmReport, State.absorb, State.answer, hr, eventOf, isEvent]

/-- A row whose rule ends with `OK`, and the trace line with a frame to which that rule applies, have the rule's table and
payload as their whole effect. -/
theorem exec_row_and_line_of_ok {s : State} {i : Instr} {f : Frame} {r : Reassembled}
    (hrow : exec i s = .next (s.reasmReport r)) (hline : reassemble s.reasm f = r) (hok : r.status = .ok) :
    exec i s = .next { s with reasm := r.table, ret := some { status := .ok, value := r.payload.map .payload } } ∧
    exec (.stepReasm f) s =
      .next { s with reasm := r.table, ret := some { status := .ok, value := r.payload.map .payload } } := by
  rw [hrow, exec_stepReasm, hline, State.reasmReport_of_ok hok]
  exact ⟨rfl, rfl⟩

/-- Settles O5: the frame's rule is `reassembleStart`, which opens the frame's data under the frame's key. -/
theorem startFrameOpensItsBuffer : Obligations.StartFrameOpensItsBuffer := by
  intro s f h tl hd hs he
  have rule : reassemble s.reasm f = reassembleStart s.reasm f :=
    reassemble_of_start ((frameStart_cons hd).trans hs) ((frameEnd_cons hd).trans he) _
  exact ⟨openBuf f.id f.data s.reasm, by simp [hd], fun k hk => lookupBuf_openBuf_other hk _ _,
    exec_row_and_line_of_ok rfl rule rfl⟩

/-- Settles O6: the frame's rule is `reassembleSingle`, which closes the frame's key and returns the frame's data. -/
theorem singleFrameIsItsOwnPayload : Obligations.SingleFrameIsItsOwnPayload := by
  intro s f h tl hd hs he
  have rule : reassemble s.reasm f = reassembleSingle s.reasm f :=
    reassemble_of_single ((frameStart_cons hd).trans hs) ((frameEnd_cons hd).trans he) _
  rw [← hd]
  exact ⟨closeBuf f.id s.reasm, lookupBuf_closeBuf_same _ _, fun k hk => lookupBuf_closeBuf_other hk _,
    exec_row_and_line_of_ok rfl rule rfl⟩

/-- Settles O8: the frame's rule is `reassembleEnd` with a buffer open, and its contribution is the slice the rule
writes. -/
theorem endFrameCompletesThePayload : Obligations.EndFrameCompletesThePayload := by
  intro s f h tl b hd hs he hl
  have rule : reassemble s.reasm f = reassembleEnd s.reasm f :=
    reassemble_of_end ((frameStart_cons hd).trans hs) ((frameEnd_cons hd).trans he) _
  have row : exec (.reasmEnd f) s = .next (s.reasmReport (reassembleEnd s.reasm f)) := rfl
  rw [reassembleEnd_of_open hl] at rule row
  rw [← contribution_cons hd]
  exact ⟨closeBuf f.id s.reasm, lookupBuf_closeBuf_same _ _, fun k hk => lookupBuf_closeBuf_other hk _,
    exec_row_and_line_of_ok row rule rfl⟩

/-- Settles O9: with no buffer open each of the three rows, and the trace line, runs `reassembleViolation`. -/
theorem frameWithNoOpenBufferIsAViolation : Obligations.FrameWithNoOpenBufferIsAViolation := by
  intro s f h tl hd hs hl t
  have report : s.reasmReport (reassembleViolation s.reasm) = t := rfl
  refine ⟨?violation, ?line, ?cont, ?stop⟩
  case violation => simp [exec, execReasmViolation, hl, report]
  case line =>
    have rule := reassemble_of_idle (by simp [hd]) ((frameStart_cons hd).trans hs) hl
    rw [exec_stepReasm, rule, report]
  case cont => simp [exec, execReasmCont, reassembleCont_of_idle hl, report]
  case stop => simp [exec, execReasmEnd, reassembleEnd_of_idle hl, report]

/-! ### Keys are independent (R117) -/

/-- What a reassembler step returns, and what it leaves for its frame's key, is a function of that key's buffer. -/
theorem reassemble_congr {t t' : Table} {f : Frame} (h : lookupBuf f.id t = lookupBuf f.id t') :
    (reassemble t f).payload = (reassemble t' f).payload ∧ (reassemble t f).status = (reassemble t' f).status ∧
    lookupBuf f.id (reassemble t f).table = lookupBuf f.id (reassemble t' f).table := by
  rcases reassemble_cases t f with ⟨hd, -⟩ | ⟨hs, he, -⟩ | ⟨hs, he, -⟩ | ⟨hd, hs, hl, -⟩ | ⟨b, hd, hs, he, hl, -⟩ |
    ⟨b, -, hs, he, hl, -⟩
  · simpa only [reassemble_of_empty hd] using ⟨rfl, rfl, h⟩
  · simp [reassemble_of_start hs he, reassembleStart]
  · simp [reassemble_of_single hs he, reassembleSingle]
  · simpa only [reassemble_of_idle hd hs hl, reassemble_of_idle hd hs (h ▸ hl)] using ⟨rfl, rfl, h⟩
  · simp [reassemble_of_cont hd hs he, reassembleCont_of_open hl, reassembleCont_of_open (h ▸ hl)]
  · simp [reassemble_of_end hs he, reassembleEnd_of_open hl, reassembleEnd_of_open (h ▸ hl)]

/-- The frames a poll presents to the reassembler are the extended ones on `RESP_ID` (R153, decision D24). -/
theorem isResponse_iff (f : Frame) : isResponse f = true ↔ f.ext = true ∧ f.id = 0x01204001#29 := by
  rw [isResponse, Bool.and_eq_true, decide_eq_true_iff, respId]

@[simp] theorem State.takePayload_reasm (s : State) (p : Payload) : (s.takePayload p).reasm = s.reasm := by
  rcases takePayload_cases s p with ⟨st, -, -, e⟩ | ⟨r, -, -, -, e⟩ | ⟨r, -, -, e⟩ <;> simp [e]

@[simp] theorem State.takeFrame_reasm (s : State) (f : Frame) :
    (s.takeFrame f).reasm = (reassemble s.reasm f).table := by
  rcases takeFrame_cases s f with ⟨-, e⟩ | ⟨p, -, e⟩ <;> simp [e]

/-- `RX` of a response frame while a poll waits is a reassembler step (R153). -/
theorem stepRx_reasm_of_taken {s t : State} {f : Frame} (hc : s.cst = .cWait) (hf : isResponse f = true)
    (h : exec (.stepRx f) s = .next t) : t.reasm = (reassemble s.reasm f).table := by
  simp only [exec, execStepRx, hc, hf, if_true] at h
  obtain rfl := Host.Outcome.next.inj h
  exact State.takeFrame_reasm s f

/-- `RX` of any other frame, or outside a poll, leaves the reassembler's table as it is (R152, R153). -/
theorem stepRx_reasm_of_not_taken {s t : State} {f : Frame} (hn : ¬(s.cst = .cWait ∧ isResponse f = true))
    (h : exec (.stepRx f) s = .next t) : t.reasm = s.reasm := by
  simp only [exec, execStepRx] at h
  split at h
  · rename_i hc
    rw [if_neg fun hf => hn ⟨hc, hf⟩] at h
    obtain rfl := Host.Outcome.next.inj h
    rfl
  · obtain rfl := Host.Outcome.next.inj h
    rfl

/-- A poll writes the buffer of `RESP_ID` only (R117, R153). -/
theorem lookupBuf_stepRx_other {s t : State} {f : Frame} {k : Ident} (hk : k ≠ 0x01204001#29)
    (h : exec (.stepRx f) s = .next t) : lookupBuf k t.reasm = lookupBuf k s.reasm := by
  by_cases hx : s.cst = .cWait ∧ isResponse f = true
  · rw [stepRx_reasm_of_taken hx.1 hx.2 h]
    exact reassemble_other_key (((isResponse_iff f).mp hx.2).2 ▸ hk)
  · rw [stepRx_reasm_of_not_taken hx h]

/-- Settles O10: `reassemble_other_key` for the frame's writes, `reassemble_congr` for what it reads, and a poll's frame
reaches the reassembler on `RESP_ID` only. -/
theorem reassemblyKeysAreIndependent : Obligations.ReassemblyKeysAreIndependent := by
  refine ⟨fun s t f k h hk => ?writes, fun s s' t t' f hl h h' => ?reads,
    fun s t f h => ⟨fun k hk => ?poll, fun hf => ?other⟩⟩
  case writes =>
    obtain rfl := Host.Outcome.next.inj h
    exact reassemble_other_key hk
  case reads =>
    obtain rfl := Host.Outcome.next.inj h
    obtain rfl := Host.Outcome.next.inj h'
    obtain ⟨hpayload, hstatus, hbuf⟩ := reassemble_congr hl
    refine ⟨?_, hbuf, eventOf (reassemble s.reasm f).status, rfl, ?_⟩
    · simp [hpayload, hstatus]
    · simp [hstatus]
  case poll => exact lookupBuf_stepRx_other hk h
  case other => exact stepRx_reasm_of_not_taken (fun ⟨_, hr⟩ => hf ((isResponse_iff f).mp hr).2) h

/-! ### An open buffer (R118) -/

/-- The table is written by the reassembler's step alone, run on the frame the instruction presents. -/
theorem exec_reasm_cases {s t : State} {i : Instr} (hw : i.wf s.cfg = true) (h : exec i s = .next t) :
    t.reasm = s.reasm ∨ ∃ f, presented i = some f ∧ t.reasm = (reassemble s.reasm f).table := by
  rcases exec_cases h with rfl | ⟨st, v, rfl⟩ | ⟨f, r, hp, -, rfl, hr⟩ | ⟨-, -, -, rfl⟩ | ⟨-, -, -, rfl⟩ |
    ⟨-, -, -, rfl⟩ | ⟨-, -, -, rfl⟩ | ⟨-, -, rfl⟩ | ⟨-, -, rfl⟩ | ⟨-, -, rfl⟩ | ⟨f, rfl, -, -, rfl⟩ | ⟨-, -, rfl⟩ |
    ⟨-, -, rfl⟩ | ⟨n, r, -, -, -, rfl⟩ | ⟨-, -, rfl⟩ | ⟨-, -, -, rfl⟩ | ⟨-, -, -, rfl⟩ | ⟨-, -, rfl⟩ |
    ⟨-, -, -, -, rfl⟩ | ⟨f, -, -, rfl⟩
  on_goal 11 => exact .inr ⟨f, rfl, State.takeFrame_reasm s f⟩
  on_goal 3 => exact .inr ⟨f, hp, by rw [State.reasmReport_reasm, hr hw]⟩
  all_goals exact .inl (by simp)

/-- A step that presents no frame on a key leaves that key's buffer as it is. -/
theorem exec_lookupBuf_other {s t : State} {i : Instr} {k : Ident} (hw : i.wf s.cfg = true) (h : exec i s = .next t)
    (hk : ∀ f, presented i = some f → f.id ≠ k) : lookupBuf k t.reasm = lookupBuf k s.reasm := by
  rcases exec_reasm_cases hw h with e | ⟨f, hp, e⟩
  · rw [e]
  · rw [e, reassemble_other_key (hk f hp).symm]

/-- A presented frame is reassembled: by a REASM row or line always, by `RX` if it is a response a poll waits for. -/
theorem exec_reasm_of_presented {s t : State} {i : Instr} {f : Frame} (hw : i.wf s.cfg = true) (h : exec i s = .next t)
    (hp : presented i = some f) (hx : (∀ g, i ≠ .stepRx g) ∨ (s.cst = .cWait ∧ isResponse f = true)) :
    t.reasm = (reassemble s.reasm f).table := by
  by_cases hrow : ∀ g, i ≠ .stepRx g
  · obtain rfl := Host.Outcome.next.inj ((exec_reasm_row hw hp hrow).symm.trans h)
    exact State.reasmReport_reasm s _
  · obtain ⟨hc, hf⟩ := hx.resolve_left hrow
    obtain ⟨g, rfl⟩ : ∃ g, i = .stepRx g := by simpa using hrow
    obtain rfl : g = f := Option.some.inj hp
    exact stepRx_reasm_of_taken hc hf h

/-- A frame with neither bit appends its contribution to its key's open buffer; one with no data contributes nothing
(R111, R114). -/
theorem lookupBuf_reassemble_of_open {t : Table} {f : Frame} {b : List Byte} (hs : frameStart f = false)
    (he : frameEnd f = false) (hl : lookupBuf f.id t = some b) :
    lookupBuf f.id (reassemble t f).table = some (b ++ contribution f) := by
  by_cases hd : f.data = []
  · simpa [reassemble_of_empty hd, reassembleEmpty, contribution_nil hd] using hl
  · simp [reassemble_of_cont hd hs he, reassembleCont_of_open hl]

/-- Settles O13: a step with no frame on the key writes other keys only, a frame on the key that is reassembled appends
to the buffer, and an `RX` whose frame no poll takes leaves the table as it is. -/
theorem openBufferSurvivesUntilStartOrEnd : Obligations.OpenBufferSurvivesUntilStartOrEnd := by
  intro s t i k b hw h hl
  refine ⟨fun hk => ?other, fun f hp hid hs he hx => ?appends, fun f hi hid hx => ?notTaken⟩
  case other => exact (exec_lookupBuf_other hw h hk).trans hl
  case appends =>
    subst hid
    have taken : (∀ g, i ≠ .stepRx g) ∨ (s.cst = .cWait ∧ isResponse f = true) := by simpa [isResponse_iff] using hx
    rw [exec_reasm_of_presented hw h hp taken, lookupBuf_reassemble_of_open hs he hl]
  case notTaken =>
    subst hi hid
    have notTaken : ¬(s.cst = .cWait ∧ isResponse f = true) := fun ⟨hc, hr⟩ => by
      obtain ⟨hext, hkey⟩ := (isResponse_iff f).mp hr
      simp [hc, hext, hkey] at hx
    rw [stepRx_reasm_of_not_taken notTaken h, hl]

end Sys2Proof.Machine

/-! ### The decoder's fields (R55, R56) -/

namespace Sys2Proof.Machine

/-- A big-endian field is the pattern of its two bytes, the first the more significant (R55). -/
theorem be16_eq_toNat_append (rd : Nat → Byte) (i : Nat) : be16 rd i = (rd i ++ rd (i + 1) : BitVec 16).toNat := by
  have low := (rd (i + 1)).isLt
  rw [be16, BitVec.toNat_append, ← Nat.shiftLeft_add_eq_or_of_lt low, Nat.shiftLeft_eq, Nat.mul_comm]

/-- `sext_n` of a pattern of `n` bits is its two's-complement value (R56, decision D13). -/
theorem sext_toNat {n : Nat} (hn : 0 < n) (x : BitVec n) : sext n x.toNat = x.toInt := by
  obtain ⟨m, rfl⟩ : ∃ m, n = m + 1 := ⟨n - 1, by omega⟩
  have hp : 2 ^ (m + 1) = 2 * 2 ^ m := Nat.pow_succ'
  have hiff : x.toNat < 2 ^ (m + 1 - 1) ↔ 2 * x.toNat < 2 ^ (m + 1) := by rw [Nat.add_sub_cancel]; omega
  simp only [sext, BitVec.toInt, hiff]

/-- R133: a payload of 9 or more bytes gives the two signed fields. -/
theorem parsePump_of_le {n : Nat} (hn : 9 ≤ n) (rd : Nat → Byte) :
    parsePump n rd =
      (some (.pump (rd 5 ++ rd 6 : BitVec 16).toInt (rd 7 ++ rd 8 : BitVec 16).toInt), .ok) := by
  simp only [parsePump, minLength, if_neg (Nat.not_lt.mpr hn), be16_eq_toNat_append, sext_toNat (n := 16) (by omega)]

theorem parsePump_of_lt {n : Nat} (hn : n < 9) (rd : Nat → Byte) : parsePump n rd = (none, .decodeTooShort) :=
  if_pos hn

/-- R134: a payload of 6 or more bytes gives the unsigned byte. -/
theorem parsePres_of_le {n : Nat} (hn : 6 ≤ n) (rd : Nat → Byte) :
    parsePres n rd = (some (.pressure (rd 5).toNat), .ok) :=
  if_neg (Nat.not_lt.mpr hn)

/-- R135: a payload of 6 or more bytes gives the signed byte. -/
theorem parseTemp_of_le {n : Nat} (hn : 6 ≤ n) (rd : Nat → Byte) :
    parseTemp n rd = (some (.temperature (rd 5).toInt), .ok) := by
  simp only [parseTemp, minLength, if_neg (Nat.not_lt.mpr hn), sext_toNat (n := 8) (by omega)]

/-- R136: a payload of 14 or more bytes gives the four unsigned fields. -/
theorem parseWheel_of_le {n : Nat} (hn : 14 ≤ n) (rd : Nat → Byte) :
    parseWheel n rd =
      (some (.wheels (rd 6 ++ rd 7 : BitVec 16).toNat (rd 8 ++ rd 9 : BitVec 16).toNat
        (rd 10 ++ rd 11 : BitVec 16).toNat (rd 12 ++ rd 13 : BitVec 16).toNat), .ok) := by
  simp only [parseWheel, minLength, if_neg (Nat.not_lt.mpr hn), be16_eq_toNat_append]

theorem parseWheel_of_lt {n : Nat} (hn : n < 14) (rd : Nat → Byte) : parseWheel n rd = (none, .decodeTooShort) :=
  if_pos hn

/-! ### The DEC rows and the trace line (R130) -/

/-- The trace line with a payload is `DEC` on it: it reads the configuration and writes the report (R130, R141). -/
theorem exec_stepDec (s : State) (p : Payload) : exec (.stepDec p) s = .next (s.decReport (dec s.cfg p)) := rfl

/-- The row a payload is at `DEC_IN` is the operation of the trace line with that payload (R83, R87). -/
theorem exec_classifyPayload_eq_stepDec (s : State) (p : Payload) :
    exec (classifyPayload s.cfg p) s = exec (.stepDec p) s := by
  rw [exec_stepDec, dec, decView, classifyPayload]
  by_cases hshort : p.length < minGeneric
  · rw [if_pos hshort, if_pos hshort]
    rfl
  · rw [if_neg hshort, if_neg hshort]
    cases sensorOfOp s.cfg (be16 (byteAt p) 3) with
    | none => rfl
    | some k => cases k <;> rfl

/-- The DEC row of a sensor's payloads (R81). -/
def decRow : Sensor → Payload → Instr
  | .pumpCurrent => .decPump
  | .oilPressure => .decPres
  | .oilTemperature => .decTemp
  | .wheelSpeeds => .decWheel

/-- The layout of a sensor's payloads (R80). -/
def layoutOf : Sensor → Nat → (Nat → Byte) → Option Reading × Status
  | .pumpCurrent => parsePump
  | .oilPressure => parsePres
  | .oilTemperature => parseTemp
  | .wheelSpeeds => parseWheel

/-- A sensor's row reports what its layout reads, whatever operation code the payload has. -/
theorem exec_decRow (s : State) (k : Sensor) (p : Payload) :
    exec (decRow k p) s = .next (s.decReport (layoutOf k p.length (byteAt p))) := by
  cases k <;> rfl

/-- Six bytes are enough to read the operation code, at bytes 3 and 4 (R79, R83). -/
theorem opIs_cons {cfg : Config} {k : Sensor} {b3 b4 : Byte} (hop : 256 * b3.toNat + b4.toNat = (opcodeOf cfg k).toNat)
    (b0 b1 b2 b5 : Byte) (rest : List Byte) : opIs cfg (b0 :: b1 :: b2 :: b3 :: b4 :: b5 :: rest) k = true := by
  simp [opIs, minGeneric, be16, byteAt, hop]

/-- The first code of the dispatch is the pump's, whatever the others are (R130; log 11). -/
theorem sensorOfOp_pump (cfg : Config) : sensorOfOp cfg (opcodeOf cfg .pumpCurrent).toNat = some .pumpCurrent :=
  if_pos rfl

/-- With the four codes distinct each names its own sensor (R81). -/
theorem sensorOfOp_opcodeOf {cfg : Config} (hw : cfg.wf = true) (k : Sensor) :
    sensorOfOp cfg (opcodeOf cfg k).toNat = some k := by
  simp only [Config.wf, Bool.and_eq_true, decide_eq_true_eq, List.nodup_cons, List.mem_cons, List.not_mem_nil, or_false,
    not_or] at hw
  obtain ⟨⟨⟨hpumpPres, hpumpTemp, hpumpWheel⟩, ⟨hpresTemp, hpresWheel⟩, htempWheel, -⟩, -⟩ := hw
  cases k with
  | pumpCurrent => exact sensorOfOp_pump cfg
  | oilPressure => simp [sensorOfOp, opcodeOf, BitVec.toNat_inj, Ne.symm hpumpPres]
  | oilTemperature => simp [sensorOfOp, opcodeOf, BitVec.toNat_inj, Ne.symm hpumpTemp, Ne.symm hpresTemp]
  | wheelSpeeds =>
    simp [sensorOfOp, opcodeOf, BitVec.toNat_inj, Ne.symm hpumpWheel, Ne.symm hpresWheel, Ne.symm htempWheel]

theorem classifyPayload_of_opIs {cfg : Config} {p : Payload} {k : Sensor} (hp : opIs cfg p k = true)
    (hk : sensorOfOp cfg (opcodeOf cfg k).toNat = some k) : classifyPayload cfg p = decRow k p := by
  simp only [opIs, Bool.and_eq_true, decide_eq_true_eq] at hp
  obtain ⟨hlen, hop⟩ := hp
  rw [classifyPayload, if_neg (Nat.not_lt.mpr hlen), hop, hk]
  cases k <;> rfl

/-- On a payload with a sensor's operation code the sensor's row and the trace line both report what the layout reads. -/
theorem exec_decRow_and_line {s : State} {k : Sensor} {p : Payload} {d : Option Reading × Status}
    (hp : opIs s.cfg p k = true) (hk : sensorOfOp s.cfg (opcodeOf s.cfg k).toNat = some k)
    (hd : layoutOf k p.length (byteAt p) = d) :
    exec (decRow k p) s = .next (s.decReport d) ∧ exec (.stepDec p) s = .next (s.decReport d) := by
  rw [← exec_classifyPayload_eq_stepDec, classifyPayload_of_opIs hp hk, exec_decRow, hd]
  exact ⟨rfl, rfl⟩

/-- Settles O15: the row is the pump's layout, whose minimum of 9 bytes parts the two answers. -/
theorem decPumpReadsTwoSignedFields : Obligations.DecPumpReadsTwoSignedFields := by
  refine ⟨fun s b0 b1 b2 b3 b4 b5 b6 b7 b8 rest hop => ?reads, fun s b0 b1 b2 b3 b4 b5 rest hop hlen => ?short⟩
  case reads =>
    exact exec_decRow_and_line (opIs_cons hop b0 b1 b2 b5 _) (sensorOfOp_pump s.cfg) (parsePump_of_le (by simp) _)
  case short =>
    have hshort : (b0 :: b1 :: b2 :: b3 :: b4 :: b5 :: rest).length < 9 := by simp; omega
    exact exec_decRow_and_line (opIs_cons hop b0 b1 b2 b5 rest) (sensorOfOp_pump s.cfg) (parsePump_of_lt hshort _)

/-- Settles O16: the pressure's own minimum is the generic one of 6 bytes. -/
theorem decPressureReadsOneUnsignedByte : Obligations.DecPressureReadsOneUnsignedByte :=
  fun _ b0 b1 b2 _ _ b5 rest hw hop =>
    exec_decRow_and_line (opIs_cons hop b0 b1 b2 b5 rest) (sensorOfOp_opcodeOf hw .oilPressure)
      (parsePres_of_le (by simp) _)

/-- Settles O17: the temperature's own minimum is the generic one of 6 bytes, and its byte is two's complement. -/
theorem decTemperatureReadsOneSignedByte : Obligations.DecTemperatureReadsOneSignedByte :=
  fun _ b0 b1 b2 _ _ b5 rest hw hop =>
    exec_decRow_and_line (opIs_cons hop b0 b1 b2 b5 rest) (sensorOfOp_opcodeOf hw .oilTemperature)
      (parseTemp_of_le (by simp) _)

/-- Settles O18: the row is the wheels' layout, whose minimum of 14 bytes parts the two answers. -/
theorem decWheelReadsFourFieldsOfOnePayload : Obligations.DecWheelReadsFourFieldsOfOnePayload := by
  refine ⟨fun s b0 b1 b2 b3 b4 b5 b6 b7 b8 b9 b10 b11 b12 b13 rest hw hop => ?reads,
    fun s b0 b1 b2 b3 b4 b5 rest hw hop hlen => ?short⟩
  case reads =>
    exact exec_decRow_and_line (opIs_cons hop b0 b1 b2 b5 _) (sensorOfOp_opcodeOf hw .wheelSpeeds)
      (parseWheel_of_le (by simp) _)
  case short =>
    have hshort : (b0 :: b1 :: b2 :: b3 :: b4 :: b5 :: rest).length < 14 := by simp; omega
    exact exec_decRow_and_line (opIs_cons hop b0 b1 b2 b5 rest) (sensorOfOp_opcodeOf hw .wheelSpeeds)
      (parseWheel_of_lt hshort _)

/-! ### What `DEC` reads and writes (R141) -/

/-- A DEC row reports what its payload alone gives, and writes the report alone: no row reads a state element. -/
theorem exec_decRows {p : Payload} {i : Instr}
    (hi : i ∈ [Instr.decShort p, .decPump p, .decPres p, .decTemp p, .decWheel p, .decUnknown p]) :
    ∃ d, ∀ s, exec i s = .next (s.decReport d) := by
  simp only [List.mem_cons, List.not_mem_nil, or_false] at hi
  obtain rfl | rfl | rfl | rfl | rfl | rfl := hi <;> exact ⟨_, fun _ => rfl⟩

/-- Settles O20: the line's report is `dec` of the configuration and the payload, a row's is `exec_decRows`. -/
theorem decReadsOnlyItsOperandAndTheConstants : Obligations.DecReadsOnlyItsOperandAndTheConstants := by
  refine ⟨fun s s' p hcfg => ?line, fun s p i hi => ?rows⟩
  case line => exact ⟨_, exec_stepDec s p, by rw [exec_stepDec, hcfg]; rfl⟩
  case rows =>
    obtain ⟨d, hd⟩ := exec_decRows hi
    exact ⟨_, fun s' _ => hd s'⟩

end Sys2Proof.Machine

/-! ### A frame received while a poll waits (R153) -/

namespace Sys2Proof.Machine

/-- A poll ignores every frame but the responses; it reports `OK` (R153; log 6). -/
theorem exec_stepRx_of_ignored {s : State} {f : Frame} (hc : s.cst = .cWait) (hf : isResponse f = false) :
    exec (.stepRx f) s = .next (s.answer .ok none) := by
  simp [exec, execStepRx, hc, hf]

/-- A poll takes every response frame (R153). -/
theorem exec_stepRx_of_response {s : State} {f : Frame} (hc : s.cst = .cWait) (hf : isResponse f = true) :
    exec (.stepRx f) s = .next (s.takeFrame f) := by
  simp [exec, execStepRx, hc, hf]

/-- The report a payload is met with is overwritten by the payload's own, and nothing else depends on it (log 6). -/
theorem State.takePayload_answer (s : State) (st : Status) (v : Option Value) (p : Payload) :
    (s.answer st v).takePayload p = s.takePayload p := by
  rw [State.takePayload, State.takePayload, State.answer_cfg]
  obtain ⟨_ | r, st'⟩ := dec s.cfg p
  · rfl
  · by_cases ha : s.accepts r = true
    · exact (if_pos ha).trans (if_pos ha).symm
    · exact (if_neg ha).trans (if_neg ha).symm

/-- A response frame that completes no payload is `REASM` of it and no more (R153). -/
theorem State.takeFrame_of_incomplete {s : State} {f : Frame} (hp : (reassemble s.reasm f).payload = none) :
    s.takeFrame f = s.reasmReport (reassemble s.reasm f) := by
  simp [State.takeFrame, State.reasmReport, hp]

/-- A response frame that completes a payload is `REASM` of it, and then the payload taken (R153). -/
theorem State.takeFrame_of_complete {s : State} {f : Frame} {p : Payload}
    (hp : (reassemble s.reasm f).payload = some p) :
    s.takeFrame f = (s.reasmReport (reassemble s.reasm f)).takePayload p := by
  rw [State.reasmReport, State.takePayload_answer]
  simp [State.takeFrame, hp]

/-- Settles O25: a response is `REASM` of the frame, and if that completes a payload the three cases of
`takePayload_cases` in the state `REASM` leaves. -/
theorem rxReassemblesDecodesAndAccepts : Obligations.RxReassemblesDecodesAndAccepts := by
  refine fun s f hc => ⟨fun hf => ?ignored, fun hext hid => ?response⟩
  case ignored =>
    have notResponse : isResponse f = false := by
      rw [Bool.eq_false_iff, Ne, isResponse_iff]
      rintro ⟨hext, hid⟩
      simp [hext, hid] at hf
    exact exec_stepRx_of_ignored hc notResponse
  case response =>
    rw [exec_stepRx_of_response hc ((isResponse_iff f).mpr ⟨hext, hid⟩)]
    refine ⟨s.reasmReport (reassemble s.reasm f), _, exec_stepReasm s f, rfl, ?_⟩
    cases hp : (reassemble s.reasm f).payload with
    | none => exact .inl ⟨rfl, by rw [State.takeFrame_of_incomplete hp]⟩
    | some p =>
      rw [State.takeFrame_of_complete hp]
      refine .inr ⟨p, _, _, rfl, exec_stepDec _ p, rfl, ?_⟩
      rcases takePayload_cases (s.reasmReport (reassemble s.reasm f)) p with
        ⟨st, hd, -, e⟩ | ⟨r, hd, -, ha, e⟩ | ⟨r, hd, ha, e⟩ <;> rw [hd, e]
      case inl => exact .inl ⟨rfl, rfl⟩
      case inr.inl => exact .inr ⟨r, rfl, fun _ => rfl, fun hna => absurd (ha.symm.trans hna) (by decide)⟩
      case inr.inr => exact .inr ⟨r, rfl, fun hac => absurd (ha.symm.trans hac) (by decide), fun _ => rfl⟩

/-! ### The timeout of a poll (R154) -/

/-- The timeout of a waiting poll is its `POLL_DONE` and `next_poll()` (R154). -/
theorem exec_stepTmo_of_wait {s : State} (hc : s.cst = .cWait) :
    exec .stepTmo s = .next ((s.emit [.pollDone s.polled .timeout none]).answer .timeout none).nextPoll := by
  simp [exec, execStepTmo, hc]

/-- Settles O27: `next_poll()` after the timeout's `POLL_DONE`, by whether a sensor is left in the round. -/
theorem timeoutEndsThePollAndGoesOn : Obligations.TimeoutEndsThePollAndGoesOn := by
  refine fun s hc => ⟨fun hi => ?more, fun hi => ?last⟩
  case more =>
    rw [exec_stepTmo_of_wait hc, State.nextPoll_more (by exact hi)]
    rfl
  case last =>
    have noneLeft : ¬s.idx.val < 3 := by rw [hi]; decide
    rw [exec_stepTmo_of_wait hc, State.nextPoll_last (by exact noneLeft)]
    rfl

end Sys2Proof.Machine

/-! ### Who reads the record among the collector's steps (R178)

Running a step from another record: every operation of the collector but `PUB` and `END` commutes with
`State.withDash`. -/

namespace Sys2Proof.Machine

/-- The state with another record. -/
def State.withDash (s : State) (d : Dash) : State := { s with dash := d }

@[simp] theorem State.withDash_cfg (s : State) (d : Dash) : (s.withDash d).cfg = s.cfg := rfl
@[simp] theorem State.withDash_reasm (s : State) (d : Dash) : (s.withDash d).reasm = s.reasm := rfl
@[simp] theorem State.withDash_cst (s : State) (d : Dash) : (s.withDash d).cst = s.cst := rfl

@[simp] theorem State.withDash_polled (s : State) (d : Dash) : (s.withDash d).polled = s.polled := rfl
@[simp] theorem State.withDash_accepts (s : State) (d : Dash) (r : Reading) :
    (s.withDash d).accepts r = s.accepts r := rfl
@[simp] theorem State.withDash_emit (s : State) (d : Dash) (os : List Output) :
    (s.withDash d).emit os = (s.emit os).withDash d := rfl
@[simp] theorem State.withDash_answer (s : State) (d : Dash) (st : Status) (v : Option Value) :
    (s.withDash d).answer st v = (s.answer st v).withDash d := rfl
@[simp] theorem State.withDash_absorb (s : State) (d : Dash) (r : Reassembled) :
    (s.withDash d).absorb r = (s.absorb r).withDash d := rfl
@[simp] theorem State.withDash_pollSucceeds (s : State) (d : Dash) (r : Reading) :
    (s.withDash d).pollSucceeds r = (s.pollSucceeds r).withDash d := rfl

@[simp] theorem State.withDash_nextPoll (s : State) (d : Dash) : (s.withDash d).nextPoll = s.nextPoll.withDash d := by
  simp only [State.nextPoll, apply_ite (State.withDash · d)]
  rfl

@[simp] theorem State.withDash_takePayload (s : State) (d : Dash) (p : Payload) :
    (s.withDash d).takePayload p = (s.takePayload p).withDash d := by
  rcases hd : dec s.cfg p with ⟨_ | r, st⟩
  · simp [State.takePayload, hd]
  · cases ha : s.accepts r <;> simp [State.takePayload, hd, ha]

@[simp] theorem State.withDash_takeFrame (s : State) (d : Dash) (f : Frame) :
    (s.withDash d).takeFrame f = (s.takeFrame f).withDash d := by
  cases hp : (reassemble s.reasm f).payload <;> simp [State.takeFrame, hp]

/-- A step of two results, each changed by `g`, has its result changed by `g`. -/
theorem next_ite_map {c : Prop} [Decidable c] {u v t : State} (g : State → State)
    (h : (if c then .next u else .next v : Host.Outcome State Fault Refusal) = .next t) :
    (if c then .next (g u) else .next (g v) : Host.Outcome State Fault Refusal) = .next (g t) := by
  split at h <;> simp_all

/-- `TOP` does not read the record: `RUN` alone chooses its result (R171). -/
theorem exec_stepTop_withDash {s t : State} (d : Dash) (h : exec .stepTop s = .next t) :
    exec .stepTop (s.withDash d) = .next (t.withDash d) := by
  by_cases hc : s.cst = .cTop
  · cases hr : s.run with
    | true =>
      obtain rfl := Host.Outcome.next.inj ((exec_stepTop_of_run hc hr).symm.trans h)
      exact exec_stepTop_of_run (s := s.withDash d) hc hr
    | false =>
      obtain rfl := Host.Outcome.next.inj ((exec_stepTop_of_not_run hc hr).symm.trans h)
      exact exec_stepTop_of_not_run (s := s.withDash d) hc hr
  · obtain rfl := Host.Outcome.next.inj ((if_neg hc).symm.trans h)
    exact if_neg hc

/-- `RX` does not read the record (R153). -/
theorem exec_stepRx_withDash {s t : State} (f : Frame) (d : Dash) (h : exec (.stepRx f) s = .next t) :
    exec (.stepRx f) (s.withDash d) = .next (t.withDash d) := by
  by_cases hc : s.cst = .cWait
  · cases hf : isResponse f with
    | true =>
      obtain rfl := Host.Outcome.next.inj ((exec_stepRx_of_response hc hf).symm.trans h)
      rw [exec_stepRx_of_response (s := s.withDash d) hc hf, State.withDash_takeFrame]
    | false =>
      obtain rfl := Host.Outcome.next.inj ((exec_stepRx_of_ignored hc hf).symm.trans h)
      exact exec_stepRx_of_ignored (s := s.withDash d) hc hf
  · obtain rfl := Host.Outcome.next.inj ((if_neg hc).symm.trans h)
    exact if_neg hc

/-- `ISSUE` does not read the record (R151, R157). -/
theorem exec_stepIssue_withDash {s t : State} (ok : Bool) (d : Dash) (h : exec (.stepIssue ok) s = .next t) :
    exec (.stepIssue ok) (s.withDash d) = .next (t.withDash d) := by
  simp only [exec, execStepIssue, State.withDash_cst] at h ⊢
  split at h
  case h_1 => exact (next_ite_map (State.withDash · d) h :)
  case h_2 =>
    obtain rfl := Host.Outcome.next.inj h
    rfl
  case h_3 =>
    obtain rfl := Host.Outcome.next.inj h
    rfl

/-- No step of the collector but `PUB` and `END` reads the record (R178). -/
theorem exec_withDash_of_collector {s t : State} {i : Instr} (d : Dash) (ha : agentOf i = .collector)
    (hPub : ∀ n, i ≠ .stepPub n) (hEnd : i ≠ .stepEnd) (h : exec i s = .next t) :
    exec i (s.withDash d) = .next (t.withDash d) := by
  cases i <;> simp only [agentOf, reduceCtorEq] at ha
  case stepTop => exact exec_stepTop_withDash d h
  case stepIssue ok => exact exec_stepIssue_withDash ok d h
  case stepRx f => exact exec_stepRx_withDash f d h
  case stepTmo => simpa [exec, execStepTmo] using next_ite_map (State.withDash · d) h
  case stepRxerr => exact (next_ite_map (State.withDash · d) h :)
  case stepPub n => exact absurd rfl (hPub n)
  case stepEnd => exact absurd rfl hEnd

/-- Settles O36: the writers of the record are those of `exec_dash_cases`, and its readers among the collector's steps
those that `exec_withDash_of_collector` leaves. -/
theorem onlyPublishAndRoundEndTouchTheRecord : Obligations.OnlyPublishAndRoundEndTouchTheRecord := by
  refine ⟨fun s t i h hne => (exec_dash_cases h).resolve_left hne, fun s t i d ha hPub hEnd h => ⟨?unwritten, ?unread⟩⟩
  case unwritten =>
    rcases exec_dash_cases h with hdash | ⟨n, hi, -⟩ | ⟨hi, -⟩
    · exact hdash
    · exact absurd hi (hPub n)
    · exact absurd hi hEnd
  case unread => exact exec_withDash_of_collector d ha hPub hEnd h

/-! ### `STOP` (R184) -/

/-- `STOP` while connected clears `RUN` (R184). -/
theorem exec_stepStop_of_connected {s : State} (hc : s.conn = .connUp) :
    exec .stepStop s = .next ({ s with run := false }.answer .ok none) :=
  if_pos hc

/-- `STOP` while not connected is not enabled (R184, R212; log 3). -/
theorem exec_stepStop_of_not_connected {s : State} (hc : s.conn ≠ .connUp) : exec .stepStop s = .next s :=
  if_neg hc

/-- Settles O44: `STOP` leaves the state connected, so that a second one clears the `RUN` it has already cleared. -/
theorem stopClearsRunOnly : Obligations.StopClearsRunOnly :=
  ⟨fun s hc => ⟨exec_stepStop_of_connected hc,
      exec_stepStop_of_connected (s := { s with run := false }.answer .ok none) hc⟩,
    fun _ => exec_stepStop_of_not_connected⟩

end Sys2Proof.Machine

/-! ### A failed connect ends the run (R237)

After a failed connect neither loop has started, so every step of an agent or of the host is not enabled (R212). -/

namespace Sys2Proof.Machine

/-! #### Steps that are not enabled (R212; log 3) -/

theorem exec_stepTop_of_not_top {s : State} (hc : s.cst ≠ .cTop) : exec .stepTop s = .next s := if_neg hc

theorem exec_stepIssue_of_not_issue_or_wait {s : State} (hi : s.cst ≠ .cIssue) (hw : s.cst ≠ .cWait) (ok : Bool) :
    exec (.stepIssue ok) s = .next s := by
  rw [exec, execStepIssue]
  split
  · contradiction
  · contradiction
  · rfl

theorem exec_stepRx_of_not_wait {s : State} (hc : s.cst ≠ .cWait) (f : Frame) :
    exec (.stepRx f) s = .next (s.keepFrame f) := if_neg hc

theorem exec_stepTmo_of_not_wait {s : State} (hc : s.cst ≠ .cWait) : exec .stepTmo s = .next s := if_neg hc

theorem exec_stepRxerr_of_not_wait {s : State} (hc : s.cst ≠ .cWait) : exec .stepRxerr s = .next s := if_neg hc

theorem exec_stepPub_of_not_pub {s : State} (hc : s.cst ≠ .cPub) (n : Nat) : exec (.stepPub n) s = .next s := by
  rw [exec, execStepPub]
  split
  · contradiction
  · rfl

theorem exec_stepEnd_of_not_end {s : State} (hc : s.cst ≠ .cEnd) : exec .stepEnd s = .next s := if_neg hc

theorem exec_stepSnap_of_not_top {s : State} (hr : s.rst ≠ .rTop) : exec .stepSnap s = .next s := if_neg hr

theorem exec_stepStart_of_exit {s : State} (he : s.exit ≠ none) : exec .stepStart s = .next s :=
  if_neg fun h => he h.2

theorem exec_stepConnfail_of_exit {s : State} (he : s.exit ≠ none) : exec .stepConnfail s = .next s :=
  if_neg fun h => he h.2

theorem exec_stepShutdown_of_not_connected {s : State} (hn : s.conn ≠ .connUp) : exec .stepShutdown s = .next s :=
  if_neg fun h => hn h.2.2

/-! #### The frames offered in a list of steps (R210; log 17) -/

/-- The host keeps these frames after those it has: `State.keepFrame` of a list. -/
def State.keepFrames (s : State) (fs : List Frame) : State := { s with held := s.held ++ fs }

@[simp] theorem State.keepFrames_nil (s : State) : s.keepFrames [] = s := by simp [State.keepFrames]

theorem State.keepFrames_singleton (s : State) (f : Frame) : s.keepFrames [f] = s.keepFrame f := rfl

theorem State.keepFrames_append (s : State) (fs gs : List Frame) :
    s.keepFrames (fs ++ gs) = (s.keepFrames fs).keepFrames gs := by simp [State.keepFrames]

/-! #### The state after a failed connect -/

/-- The connect has failed: neither loop has started, and the exit status is decided with no transport (R237). -/
structure State.ConnectFailed (s : State) : Prop where
  collector : s.cst = .cInit
  renderer : s.rst = .rInit
  transport : s.conn = .connNone
  decided : s.exit ≠ none

/-- Frames kept by the host do not undo a failed connect. -/
theorem State.ConnectFailed.keepFrames {s : State} (h : s.ConnectFailed) (fs : List Frame) :
    (s.keepFrames fs).ConnectFailed :=
  ⟨h.collector, h.renderer, h.transport, h.decided⟩

/-- `CONNFAIL`, where it is enabled, decides the exit status and presents it (R237). -/
theorem exec_stepConnfail_of_enabled {s : State} (hc : s.conn = .connNone) (he : s.exit = none) :
    exec .stepConnfail s = .next (({ s with exit := some .exitFail }.emit [.exitOut .exitFail]).answer .ok none) :=
  if_pos ⟨hc, he⟩

/-- After a failed connect no step of an agent or of the host is enabled; a frame offered waits with the host (R210). -/
theorem exec_of_connectFailed {s : State} {i : Instr} (h : s.ConnectFailed) (ha : agentOf i ≠ .standAlone) :
    exec i s = .next (s.keepFrames (offeredFrame i).toList) := by
  obtain ⟨hcst, hrst, hconn, hexit⟩ := h
  have notIn {c : CollectorState} (hc : .cInit ≠ c) : s.cst ≠ c := hcst ▸ hc
  have notUp : s.conn ≠ .connUp := by simp [hconn]
  cases i <;> simp only [agentOf, ne_eq, not_true_eq_false] at ha <;>
    simp only [offeredFrame, Option.toList_none, Option.toList_some, State.keepFrames_nil, State.keepFrames_singleton]
  case stepStart => exact exec_stepStart_of_exit hexit
  case stepConnfail => exact exec_stepConnfail_of_exit hexit
  case stepTop => exact exec_stepTop_of_not_top (notIn nofun)
  case stepIssue ok => exact exec_stepIssue_of_not_issue_or_wait (notIn nofun) (notIn nofun) ok
  case stepRx f => exact exec_stepRx_of_not_wait (notIn nofun) f
  case stepTmo => exact exec_stepTmo_of_not_wait (notIn nofun)
  case stepRxerr => exact exec_stepRxerr_of_not_wait (notIn nofun)
  case stepPub n => exact exec_stepPub_of_not_pub (notIn nofun) n
  case stepEnd => exact exec_stepEnd_of_not_end (notIn nofun)
  case stepSnap => exact exec_stepSnap_of_not_top (by simp [hrst])
  case stepStop => exact exec_stepStop_of_not_connected notUp
  case stepShutdown => exact exec_stepShutdown_of_not_connected notUp

/-- After a failed connect any list of steps of the agents and of the host has the host keep the frames offered and does
nothing else, by induction on the list. -/
theorem execAll_of_connectFailed {s : State} {is : List Instr} (h : s.ConnectFailed)
    (ha : ∀ i ∈ is, agentOf i ≠ .standAlone) :
    execAll is s = .next (s.keepFrames (is.filterMap offeredFrame)) := by
  rw [List.filterMap_eq_flatMap_toList]
  induction is generalizing s with
  | nil => simp [execAll]
  | cons i is ih =>
    obtain ⟨hi, his⟩ := List.forall_mem_cons.mp ha
    rw [execAll_cons (exec_of_connectFailed h hi), ih (h.keepFrames _) his, List.flatMap_cons,
      State.keepFrames_append]

/-- Settles O43: `CONNFAIL` leaves a state in which the connect has failed, the invariant of the state before it saying
that neither loop has started; `execAll_of_connectFailed` is the run from there. -/
theorem failedConnectEndsTheRun : Obligations.FailedConnectEndsTheRun := by
  refine fun s hc he => ⟨_, rfl, exec_stepConnfail_of_enabled hc he, Nat.succ_ne_zero _, fun hinv is ha => ?_⟩
  obtain ⟨hcst, hrst, -, -⟩ := hinv.control.notStarted hc
  exact execAll_of_connectFailed ⟨hcst, hrst, hc, nofun⟩ ha

end Sys2Proof.Machine

/-! ### The effects of an instruction, by name

`exec_cases` as an inductive relation, so that a proof about what every instruction keeps is a case analysis with named
cases. The case of a response frame is parted once more, by whether the poll goes on waiting (R153). -/

namespace Sys2Proof.Machine

@[simp] theorem State.nextPoll_cst_ne_wait (s : State) : s.nextPoll.cst ≠ .cWait := by
  rcases s.nextPoll_cst with h | h <;> simp [h]

@[simp] theorem State.nextPoll_cst_ne_pub (s : State) : s.nextPoll.cst ≠ .cPub := by
  rcases s.nextPoll_cst with h | h <;> simp [h]

@[simp] theorem State.nextPoll_cst_ne_init (s : State) : s.nextPoll.cst ≠ .cInit := by
  rcases s.nextPoll_cst with h | h <;> simp [h]

@[simp] theorem State.nextPoll_cst_ne_exit (s : State) : s.nextPoll.cst ≠ .cExit := by
  rcases s.nextPoll_cst with h | h <;> simp [h]

/-- An event is on `EVT` (R44). -/
theorem evt_of_mem_eventOf {st : Status} {o : Output} (h : o ∈ eventOf st) : o = .evt st := by
  rw [eventOf] at h
  split at h <;> simp_all

/-- A frame that completes a payload ends with `OK` (R113, R115). -/
theorem reassemble_status_of_payload {t : Table} {f : Frame} {p : Payload} (hp : (reassemble t f).payload = some p) :
    (reassemble t f).status = .ok := by
  rcases reassemble_cases t f with ⟨-, e⟩ | ⟨-, -, e⟩ | ⟨-, -, e⟩ | ⟨-, -, -, e⟩ | ⟨b, -, -, -, -, e⟩ |
    ⟨b, -, -, -, -, e⟩ <;> rw [e] at hp ⊢
  case inr.inr.inl => rfl
  all_goals cases hp

/-- What a response frame leads to during a poll (R153): the poll goes on waiting, with no more than an event, or it ends
with a reading in range that it accepts. -/
theorem takeFrame_waits_or_accepts (s : State) (f : Frame) :
    (∃ st os, (∀ o ∈ os, ∃ e, o = .evt e) ∧
      s.takeFrame f = ({ s with reasm := (reassemble s.reasm f).table }.emit os).answer st none) ∨
    (∃ r, readingInRange r = true ∧ s.accepts r = true ∧
      s.takeFrame f = { s with reasm := (reassemble s.reasm f).table }.pollSucceeds r) := by
  have absorbed : s.absorb (reassemble s.reasm f) =
      { s with reasm := (reassemble s.reasm f).table }.emit (eventOf (reassemble s.reasm f).status) := rfl
  rcases takeFrame_cases s f with ⟨-, e⟩ | ⟨p, hp, e⟩
  · exact .inl ⟨_, _, fun o ho => ⟨_, evt_of_mem_eventOf ho⟩, e.trans (by rw [absorbed])⟩
  · have noEvent : s.absorb (reassemble s.reasm f) = { s with reasm := (reassemble s.reasm f).table } := by
      simp [State.absorb, reassemble_status_of_payload hp, eventOf, isEvent]
    rw [e, noEvent]
    rcases takePayload_cases { s with reasm := (reassemble s.reasm f).table } p with
      ⟨st, -, -, e⟩ | ⟨r, -, hr, ha, e⟩ | ⟨r, -, -, e⟩
    · exact .inl ⟨st, [], by simp, by simp [e, State.emit]⟩
    · exact .inr ⟨r, hr, ha, e⟩
    · exact .inl ⟨.kindMismatch, _, by simp, e⟩

/-- The effect of an instruction on a state: each constructor is one result, with the condition it needs. -/
inductive Effect (s : State) : Instr → State → Prop where
  /-- not enabled (R212) -/
  | nothing (i : Instr) : Effect s i s
  /-- a report and no more (R102, R141, R153) -/
  | report (i : Instr) (st : Status) (v : Option Value) : Effect s i (s.answer st v)
  /-- a REASM row or line (R110) -/
  | reasm (i : Instr) (f : Frame) (r : Reassembled) (hp : presented i = some f)
      (hr : i.wf s.cfg = true → r = reassemble s.reasm f) : Effect s i (s.reasmReport r)
  /-- `START` (R236) -/
  | start (hc : s.conn = .connNone) (he : s.exit = none) :
      Effect s .stepStart ({ s with conn := .connUp, run := true, cst := .cTop, rst := .rTop }.answer .ok none)
  /-- `CONNFAIL` (R237) -/
  | connfail (hc : s.conn = .connNone) (he : s.exit = none) :
      Effect s .stepConnfail (({ s with exit := some .exitFail }.emit [.exitOut .exitFail]).answer .ok none)
  /-- `TOP` with `RUN` true (R171) -/
  | newRound (hc : s.cst = .cTop) (hr : s.run = true) :
      Effect s .stepTop
        ({ s with idx := 0, roundOk := false, roundErr := false, pend := none, cst := .cIssue }.answer .ok none)
  /-- `TOP` with `RUN` false (R171) -/
  | collectorLeaves (hc : s.cst = .cTop) (hr : s.run = false) :
      Effect s .stepTop ({ s with cst := .cExit }.answer .ok none)
  /-- `ISSUE ok` (R151) -/
  | issue (hc : s.cst = .cIssue) :
      Effect s (.stepIssue true) ({ s.emit [.tx (requestFrame s.polled)] with cst := .cWait }.answer .ok none)
  /-- `ISSUE fail` (R151) -/
  | issueFails (hc : s.cst = .cIssue) :
      Effect s (.stepIssue false) (s.emit [.tx (requestFrame s.polled)]).abortRound
  /-- a second poll (R157) -/
  | secondPoll (ok : Bool) (hc : s.cst = .cWait) : Effect s (.stepIssue ok) { s with fault := some .pollBusy }
  /-- a response after which the poll waits on (R153, R209) -/
  | rxWaits (f : Frame) (st : Status) (os : List Output) (hc : s.cst = .cWait) (hf : isResponse f = true)
      (hos : ∀ o ∈ os, ∃ e, o = .evt e) :
      Effect s (.stepRx f) (({ s with reasm := (reassemble s.reasm f).table }.emit os).answer st none)
  /-- a response that ends the poll with a reading (R153, R155) -/
  | rxAccepts (f : Frame) (r : Reading) (hc : s.cst = .cWait) (hf : isResponse f = true)
      (hr : readingInRange r = true) (ha : s.accepts r = true) :
      Effect s (.stepRx f) ({ s with reasm := (reassemble s.reasm f).table }.pollSucceeds r)
  /-- `TMO` (R154) -/
  | timeout (hc : s.cst = .cWait) :
      Effect s .stepTmo ((s.emit [.pollDone s.polled .timeout none]).answer .timeout none).nextPoll
  /-- `RXERR` (R156) -/
  | receiveFails (hc : s.cst = .cWait) : Effect s .stepRxerr s.abortRound
  /-- `PUB` (R174) -/
  | publish (n : Nat) (r : Reading) (hc : s.cst = .cPub) (hp : s.pend = some r) :
      Effect s (.stepPub n)
        ({ s with dash := s.dash.publish r n, roundOk := true, pend := none }.answer .ok none).nextPoll
  /-- `END` (R176) -/
  | roundEnd (hc : s.cst = .cEnd) : Effect s .stepEnd ({ s with dash := s.roundEndDash, cst := .cTop }.answer .ok none)
  /-- `SNAP` with `RUN` true (R180) -/
  | snap (hc : s.rst = .rTop) (hr : s.run = true) :
      Effect s .stepSnap (({ s with snap := some s.dash, rst := .rTop }.emit [.snapOut s.dash]).answer .ok none)
  /-- `SNAP` with `RUN` false (R180) -/
  | rendererLeaves (hc : s.rst = .rTop) (hr : s.run = false) :
      Effect s .stepSnap ({ s with rst := .rExit }.answer .ok none)
  /-- `STOP` (R184) -/
  | stop (hc : s.conn = .connUp) : Effect s .stepStop ({ s with run := false }.answer .ok none)
  /-- `SHUTDOWN` (R238) -/
  | shutdown (hc : s.cst = .cExit) (hr : s.rst = .rExit) (hn : s.conn = .connUp) :
      Effect s .stepShutdown
        (({ s with conn := .connDown, exit := some .exitOk }.emit [.disconnect, .exitOut .exitOk]).answer .ok none)
  /-- `RX` outside a poll (R210) -/
  | keep (f : Frame) (hc : s.cst ≠ .cWait) : Effect s (.stepRx f) (s.keepFrame f)

/-- Every instruction has one of the effects. -/
theorem exec_effect {s t : State} {i : Instr} (h : exec i s = .next t) : Effect s i t := by
  rcases exec_cases h with rfl | ⟨st, v, rfl⟩ | ⟨f, r, hp, -, rfl, hr⟩ | ⟨rfl, hc, he, rfl⟩ | ⟨rfl, hc, he, rfl⟩ |
    ⟨rfl, hc, hr, rfl⟩ | ⟨rfl, hc, hr, rfl⟩ | ⟨rfl, hc, rfl⟩ | ⟨rfl, hc, rfl⟩ | ⟨⟨ok, rfl⟩, hc, rfl⟩ |
    ⟨f, rfl, hc, hf, e⟩ | ⟨rfl, hc, rfl⟩ | ⟨rfl, hc, rfl⟩ | ⟨n, r, rfl, hc, hp, rfl⟩ | ⟨rfl, hc, rfl⟩ |
    ⟨rfl, hc, hr, rfl⟩ | ⟨rfl, hc, hr, rfl⟩ | ⟨rfl, hc, rfl⟩ | ⟨rfl, hc, hr, hn, rfl⟩ | ⟨f, rfl, hc, rfl⟩
  on_goal 11 =>
    rcases takeFrame_waits_or_accepts s f with ⟨st, os, hos, e'⟩ | ⟨r, hr, ha, e'⟩
    · exact e.trans e' ▸ .rxWaits f st os hc hf hos
    · exact e.trans e' ▸ .rxAccepts f r hc hf hr ha
  all_goals constructor <;> assumption

/-! #### `State.reasmReport` (R110): the fields a REASM row or line leaves alone -/

@[simp] theorem State.reasmReport_cfg (s : State) (r : Reassembled) : (s.reasmReport r).cfg = s.cfg := rfl
@[simp] theorem State.reasmReport_cst (s : State) (r : Reassembled) : (s.reasmReport r).cst = s.cst := rfl
@[simp] theorem State.reasmReport_idx (s : State) (r : Reassembled) : (s.reasmReport r).idx = s.idx := rfl
@[simp] theorem State.reasmReport_roundErr (s : State) (r : Reassembled) : (s.reasmReport r).roundErr = s.roundErr := rfl
@[simp] theorem State.reasmReport_pend (s : State) (r : Reassembled) : (s.reasmReport r).pend = s.pend := rfl
@[simp] theorem State.reasmReport_dash (s : State) (r : Reassembled) : (s.reasmReport r).dash = s.dash := rfl
@[simp] theorem State.reasmReport_run (s : State) (r : Reassembled) : (s.reasmReport r).run = s.run := rfl
@[simp] theorem State.reasmReport_snap (s : State) (r : Reassembled) : (s.reasmReport r).snap = s.snap := rfl
@[simp] theorem State.reasmReport_rst (s : State) (r : Reassembled) : (s.reasmReport r).rst = s.rst := rfl
@[simp] theorem State.reasmReport_conn (s : State) (r : Reassembled) : (s.reasmReport r).conn = s.conn := rfl
@[simp] theorem State.reasmReport_exit (s : State) (r : Reassembled) : (s.reasmReport r).exit = s.exit := rfl
@[simp] theorem State.reasmReport_fault (s : State) (r : Reassembled) : (s.reasmReport r).fault = s.fault := rfl
@[simp] theorem State.reasmReport_trace (s : State) (r : Reassembled) : (s.reasmReport r).trace = s.trace := rfl
@[simp] theorem State.reasmReport_held (s : State) (r : Reassembled) : (s.reasmReport r).held = s.held := rfl
@[simp] theorem State.reasmReport_picks (s : State) (r : Reassembled) : (s.reasmReport r).picks = s.picks := rfl

end Sys2Proof.Machine

/-! ### What one step runs, beside the host's own fields -/

namespace Sys2Proof.Machine

/-- A step runs an instruction from the same block: a decoded line or `RX` of a kept frame; only the offers to come, the
frames the host keeps and its choices' count differ before it. -/
theorem step_runs {s t : State} (h : step s = .next t) :
    ∃ i tr hd n, ((∃ o, decode s.cfg s.reasm o = .ok i) ∨ ∃ f ∈ s.held, i = .stepRx f) ∧ (∀ g ∈ hd, g ∈ s.held) ∧
      exec i { s with trace := tr, held := hd, picks := n } = .next t := by
  rcases step_cases h with ⟨o, rest, i, n, -, hd, hx⟩ | ⟨f, rest, n, -, hf, hrest, hx⟩
  · exact ⟨i, rest, s.held, n, .inl ⟨o, hd⟩, fun _ hg => hg, hx⟩
  · exact ⟨.stepRx f, s.trace, rest, n, .inr ⟨f, hf, rfl⟩, hrest, hx⟩

end Sys2Proof.Machine

/-! ### One outstanding request, and the success counter (R150, R174) -/

namespace Sys2Proof.Machine

/-- Events are not counted among the requests, the `POLL_DONE`s or the readings. -/
theorem countP_evts {p : Output → Bool} {os : List Output} (hp : ∀ e, p (.evt e) = false)
    (hos : ∀ o ∈ os, ∃ e, o = .evt e) : os.countP p = 0 := by
  rw [List.countP_eq_zero]
  intro o ho
  obtain ⟨e, rfl⟩ := hos o ho
  simp [hp]

theorem isTx_evt (e : Status) : isTx (.evt e) = false := rfl
theorem isPollDone_evt (e : Status) : isPollDone (.evt e) = false := rfl
theorem isPollOk_evt (e : Status) : isPollOk (.evt e) = false := rfl

theorem eventOf_evts (st : Status) : ∀ o ∈ eventOf st, ∃ e, o = .evt e := fun _ ho => ⟨st, evt_of_mem_eventOf ho⟩

@[simp] theorem State.roundEndDash_succ (s : State) : s.roundEndDash.succ = s.dash.succ := by
  rcases s.roundEndDash_cases with e | e <;> simp [e]

/-- Each request is followed by one `POLL_DONE`: `ISSUE` opens the poll, and the ways out of `C_WAIT` close it. `START`
is the one other step that leaves an arbitrary control state, and it finds `C_INIT`. -/
theorem exec_keeps_pollBalance {s t : State} {i : Instr} (hinit : s.conn = .connNone → s.cst = .cInit)
    (hb : PollBalance s) (h : exec i s = .next t) : PollBalance t := by
  unfold PollBalance at hb ⊢
  cases exec_effect h
  case report => exact hb
  case reasm f r hp hr =>
    rw [State.reasmReport_out, List.countP_append, List.countP_append, countP_evts isTx_evt (eventOf_evts _),
      countP_evts isPollDone_evt (eventOf_evts _)]
    exact hb
  case start hc he => simpa [hinit hc] using hb
  case issueFails hc => simpa [hc, isTx, isPollDone, List.countP_cons] using hb
  case rxWaits f st os hc hf hos =>
    simpa [countP_evts isTx_evt hos, countP_evts isPollDone_evt hos, hc] using hb
  all_goals simp_all [isTx, isPollDone]

/-- The success count lags the readings by the one pending: an accepted reading enters `C_PUB`, and `PUB` leaves it. -/
theorem exec_keeps_successCount {s t : State} {i : Instr} (hinit : s.conn = .connNone → s.cst = .cInit)
    (hb : SuccessCount s) (h : exec i s = .next t) : SuccessCount t := by
  unfold SuccessCount at hb ⊢
  cases exec_effect h
  case report => exact hb
  case keep => exact hb
  case reasm f r hp hr =>
    rw [State.reasmReport_out, List.countP_append, countP_evts isPollOk_evt (eventOf_evts _)]
    exact hb
  case start hc he => simpa [hinit hc] using hb
  case rxWaits f st os hc hf hos => simpa [countP_evts isPollOk_evt hos, hc] using hb
  case rxAccepts f r hc hf hr ha =>
    have hsucc : s.dash.succ = BitVec.ofNat 32 (s.out.countP isPollOk) := by simpa [hc] using hb
    simp [isPollOk, hsucc, BitVec.ofNat_add]
  all_goals simp_all [isPollOk]

/-- Settles O31: what a step runs keeps both, and the invariant says that nothing has started before the connect. -/
theorem pollBalanceAndSuccessCountKept : Obligations.PollBalanceAndSuccessCountKept := by
  intro s t hinv hbalance hcount h
  obtain ⟨i, tr, hd, n, -, -, hx⟩ := step_runs h
  have hinit : s.conn = .connNone → s.cst = .cInit := fun hc => (hinv.control.notStarted hc).1
  exact ⟨exec_keeps_pollBalance (by exact hinit) (by exact hbalance) hx,
    exec_keeps_successCount (by exact hinit) (by exact hcount) hx⟩

end Sys2Proof.Machine

/-! ### Where every reading comes from (R182) -/

namespace Sys2Proof.Machine

theorem wasRead_append {os : List Output} {r : Reading} (h : wasRead os r) (os' : List Output) :
    wasRead (os ++ os') r := by
  obtain ⟨p, hp⟩ := h
  exact ⟨p, List.mem_append_left os' hp⟩

theorem dashWasRead_append {os : List Output} {d : Dash} (h : dashWasRead os d) (os' : List Output) :
    dashWasRead (os ++ os') d := fun k r hr => wasRead_append (h k r hr) os'

/-- Every snapshot among these outputs holds only readings of polls that ended before it: the fourth clause of
`Provenance`. -/
def snapshotsWereRead (os : List Output) : Prop :=
  ∀ before x rest, os = before ++ Output.snapOut x :: rest → dashWasRead before x

/-- One more output keeps it, unless it is a snapshot of something not yet read. -/
theorem snapshotsWereRead_concat {os : List Output} {o : Output} (h : snapshotsWereRead os)
    (ho : ∀ x, o = .snapOut x → dashWasRead os x) : snapshotsWereRead (os ++ [o]) := by
  intro before x rest e
  rcases List.eq_nil_or_concat rest with rfl | ⟨rest, z, rfl⟩
  · obtain ⟨rfl, hlast⟩ := List.append_inj' e rfl
    exact ho x (by simpa using hlast)
  · rw [List.concat_eq_append, ← List.cons_append, ← List.append_assoc] at e
    exact h before x rest (List.append_inj' e rfl).1

/-- Outputs with no snapshot among them keep it, by induction on their list. -/
theorem snapshotsWereRead_append {os os' : List Output} (h : snapshotsWereRead os)
    (ho : ∀ x, Output.snapOut x ∉ os') : snapshotsWereRead (os ++ os') := by
  induction os' generalizing os with
  | nil => simpa using h
  | cons o os' ih =>
    rw [List.append_cons]
    refine ih (snapshotsWereRead_concat h fun x hx => absurd List.mem_cons_self (hx ▸ ho x)) fun x hx => ?_
    exact ho x (List.mem_cons_of_mem o hx)

/-- A step that presents no snapshot keeps the provenance of a record, pending reading and copy that were all read. -/
theorem Provenance.append {s t : State} {os : List Output} (h : Provenance s) (hout : t.out = s.out ++ os)
    (hos : ∀ x, Output.snapOut x ∉ os) (hdash : dashWasRead t.out t.dash)
    (hpend : ∀ r, t.pend = some r → wasRead t.out r) (hsnap : t.snap = s.snap) : Provenance t where
  record := hdash
  pending := hpend
  copy x hx := hout ▸ dashWasRead_append (h.copy x (hsnap ▸ hx)) os
  presented := by
    rw [hout]
    exact snapshotsWereRead_append h.presented hos

/-- A step that leaves the record, the pending reading and the copy, and presents no snapshot, keeps the provenance. -/
theorem Provenance.frame {s t : State} {os : List Output} (h : Provenance s) (hout : t.out = s.out ++ os)
    (hos : ∀ x, Output.snapOut x ∉ os) (hdash : t.dash = s.dash) (hpend : t.pend = s.pend) (hsnap : t.snap = s.snap) :
    Provenance t := by
  refine h.append hout hos ?_ (fun r hr => ?_) hsnap <;> rw [hout]
  · exact hdash ▸ dashWasRead_append h.record os
  · exact wasRead_append (h.pending r (hpend ▸ hr)) os

theorem snapOut_not_mem_of_evts {os : List Output} (hos : ∀ o ∈ os, ∃ e, o = .evt e) (x : Snapshot) :
    Output.snapOut x ∉ os := fun hx => nomatch hos _ hx

/-- A publish writes the pending reading, and every group of the record was read before (R174). -/
theorem dashWasRead_publish {os : List Output} {d : Dash} {r : Reading} (hd : dashWasRead os d) (hr : wasRead os r)
    (n : Nat) : dashWasRead os (d.publish r n) := by
  intro k r' hk
  rw [groupOf_publish, groupOf_setGroup] at hk
  split at hk
  · exact Option.some.inj hk ▸ hr
  · exact hd k r' hk

@[simp] theorem groupOf_roundEndDash (s : State) (k : Sensor) : groupOf s.roundEndDash k = groupOf s.dash k := by
  rcases s.roundEndDash_cases with e | e <;> simp [e]

/-- A pending reading comes from the poll that has just ended with it, a record's reading from the one pending, and a
snapshot's from the record. -/
theorem exec_keeps_provenance {s t : State} {i : Instr} (hp : Provenance s) (h : exec i s = .next t) :
    Provenance t := by
  cases exec_effect h
  case nothing => exact hp
  case reasm f r hpres hr => exact hp.frame rfl (snapOut_not_mem_of_evts (eventOf_evts _)) rfl rfl rfl
  case rxWaits f st os hc hf hos => exact hp.frame rfl (snapOut_not_mem_of_evts hos) rfl rfl rfl
  case newRound hc hr => exact hp.append (os := []) (by simp) (by simp) hp.record (by simp) rfl
  case rxAccepts f r hc hf hr ha =>
    refine hp.append rfl (by simp) (dashWasRead_append hp.record _) (fun r' hr' => ?_) rfl
    obtain rfl : r = r' := Option.some.inj hr'
    exact ⟨_, List.mem_append_right _ List.mem_cons_self⟩
  case publish n r hc hpend =>
    refine hp.append (os := []) (by simp) (by simp) ?_ (by simp) (by simp)
    simpa using dashWasRead_publish hp.record (hp.pending r hpend) n
  case roundEnd hc =>
    refine hp.append (os := []) (by simp) (by simp) (fun k r hk => hp.record k r ?_) hp.pending rfl
    exact (groupOf_roundEndDash s k).symm.trans hk
  case snap hc hr =>
    exact {
      record := dashWasRead_append hp.record _
      pending := fun r hr => wasRead_append (hp.pending r hr) _
      copy := fun x hx => Option.some.inj hx ▸ dashWasRead_append hp.record _
      presented := snapshotsWereRead_concat hp.presented fun x hx => Output.snapOut.inj hx ▸ hp.record }
  all_goals exact hp.frame (by simp; rfl) (by simp) (by simp) (by simp) (by simp)

/-- Settles O41: `exec_keeps_provenance`, the host's own fields having no part in the provenance. -/
theorem everySnapshotHoldsOnlyEarlierReadings : Obligations.EverySnapshotHoldsOnlyEarlierReadings := by
  intro s t hp h
  obtain ⟨i, tr, hd, n, -, -, hx⟩ := step_runs h
  refine exec_keeps_provenance ?_ hx
  exact ⟨hp.record, hp.pending, hp.copy, hp.presented⟩

end Sys2Proof.Machine

/-! ### The decoder and the encoder agree (R85, R87) -/

namespace Sys2Proof

open Sys2Proof.Machine

/-! #### What each operand field's decoder accepts -/

theorem map_eq_ok_iff {α β : Type} {g : α → β} {x : Except Reject α} {b : β} :
    x.map g = .ok b ↔ ∃ a, x = .ok a ∧ g a = b := by
  cases x <;> simp [Except.map]

theorem encodeSel_of_decodeSel {bs : List Byte} {sel : Sel} (h : decodeSel bs = .ok sel) : encodeSel sel = bs := by
  unfold decodeSel at h
  split at h
  case h_1 => cases h
  case h_2 b =>
    split at h
    case isTrue hlt =>
      obtain rfl := Except.ok.inj h
      rw [encodeSel, BitVec.toNat_ofNat, Nat.mod_eq_of_lt hlt, BitVec.ofNat_toNat, BitVec.setWidth_eq]
    case isFalse => cases h
  case h_3 => cases h

/-- The four bytes of a word, read off the word's value. -/
theorem bytes_of_beValue (b0 b1 b2 b3 : Byte) :
    let w := beValue [b0, b1, b2, b3]
    w < 2 ^ 32 ∧ [BitVec.ofNat 8 (w / 2 ^ 24), BitVec.ofNat 8 (w / 2 ^ 16 % 256), BitVec.ofNat 8 (w / 2 ^ 8 % 256),
      BitVec.ofNat 8 (w % 256)] = [b0, b1, b2, b3] := by
  have h0 := b0.isLt
  have h1 := b1.isLt
  have h2 := b2.isLt
  have h3 := b3.isLt
  simp only [beValue, List.foldl, List.cons.injEq, and_true, ← BitVec.toNat_inj, BitVec.toNat_ofNat]
  omega

/-- The decoder of a frame accepts frames (R22), each from the bytes the encoder writes for it. -/
theorem decodeFrame_eq_ok {bs : List Byte} {f : Frame} (h : decodeFrame bs = .ok f) :
    f.wf = true ∧ encodeFrame f = bs := by
  unfold decodeFrame at h
  split at h
  case h_2 => cases h
  case h_1 b0 b1 b2 b3 data =>
    obtain ⟨hlt, hbytes⟩ := bytes_of_beValue b0 b1 b2 b3
    generalize beValue [b0, b1, b2, b3] = w at h hlt hbytes
    simp only at h
    split at h
    case isFalse => cases h
    case isTrue hid =>
      split at h
      case isFalse => cases h
      case isTrue hlen =>
        obtain rfl := Except.ok.inj h
        have word : (if decide (w < 2 ^ 31) = true then 0 else 2 ^ 31) + (BitVec.ofNat 29 (w % 2 ^ 31)).toNat = w := by
          rw [BitVec.toNat_ofNat, Nat.mod_eq_of_lt hid]
          by_cases hext : w < 2 ^ 31
          · rw [if_pos (decide_eq_true hext)]
            omega
          · rw [if_neg (by simpa using hext)]
            omega
        refine ⟨by simpa [Frame.wf] using hlen, ?_⟩
        simp only [encodeFrame, word, hbytes, List.cons_append, List.nil_append]

/-! #### The rows of a select code, a frame and a payload -/

theorem headerIs_iff (f : Frame) (start stop : Bool) :
    f.headerIs start stop = true ↔ f.data ≠ [] ∧ frameStart f = start ∧ frameEnd f = stop := by
  cases hd : f.data <;> simp [Frame.headerIs, frameStart, frameEnd, hd]

theorem classifyFrame_of_empty {f : Frame} (hd : f.data = []) (bufs : Table) :
    classifyFrame bufs f = .reasmEmpty f := by
  simp [classifyFrame, hd]

/-- The row of a frame with data: its header's bits, and whether a buffer is open (R76; log 8). -/
theorem classifyFrame_of_data {f : Frame} (hd : f.data ≠ []) (bufs : Table) :
    classifyFrame bufs f =
      if frameStart f then (if frameEnd f then .reasmSingle f else .reasmStart f)
      else if lookupBuf f.id bufs = none then .reasmViolation f
      else if frameEnd f then .reasmEnd f
      else .reasmCont f := by
  cases h : f.data with
  | nil => exact absurd h hd
  | cons b tl => simp [classifyFrame, frameStart, frameEnd, h]

/-- The dispatch names a sensor by its own operation code, or none, the code being no sensor's (R81, R132). -/
theorem sensorOfOp_cases (cfg : Config) (op : Nat) :
    (∃ k, sensorOfOp cfg op = some k ∧ op = (opcodeOf cfg k).toNat) ∨
    (sensorOfOp cfg op = none ∧ ∀ k, op ≠ (opcodeOf cfg k).toNat) := by
  fun_cases sensorOfOp cfg op
  case case5 hpump hpres htemp hwheel => exact .inr ⟨rfl, fun k => by cases k <;> assumption⟩
  all_goals exact .inl ⟨_, rfl, ‹_›⟩

theorem sensorOfOp_of_unknown {cfg : Config} {op : Nat} (hop : ∀ k, op ≠ (opcodeOf cfg k).toNat) :
    sensorOfOp cfg op = none := by
  rcases sensorOfOp_cases cfg op with ⟨k, -, hk⟩ | ⟨hn, -⟩
  · exact absurd hk (hop k)
  · exact hn

theorem classifyPayload_of_short {p : Payload} (hlen : p.length < minGeneric) (cfg : Config) :
    classifyPayload cfg p = .decShort p := if_pos hlen

theorem classifyPayload_of_unknown {cfg : Config} {p : Payload} (hlen : minGeneric ≤ p.length)
    (hop : ∀ k, be16 (byteAt p) 3 ≠ (opcodeOf cfg k).toNat) : classifyPayload cfg p = .decUnknown p := by
  rw [classifyPayload, if_neg (Nat.not_lt.mpr hlen), sensorOfOp_of_unknown hop]

theorem opIs_iff (cfg : Config) (p : Payload) (k : Sensor) :
    opIs cfg p k = true ↔ minGeneric ≤ p.length ∧ be16 (byteAt p) 3 = (opcodeOf cfg k).toNat := by
  simp [opIs]

/-- What `decUnknown` needs (R132): the payload is long enough, and its code is no sensor's. -/
theorem decUnknown_wf_iff (cfg : Config) (p : Payload) :
    Instr.wf cfg (.decUnknown p) = true ↔
      minGeneric ≤ p.length ∧ ∀ k, be16 (byteAt p) 3 ≠ (opcodeOf cfg k).toNat := by
  have bySensor : (∀ k, be16 (byteAt p) 3 ≠ (opcodeOf cfg k).toNat) ↔
      be16 (byteAt p) 3 ≠ (opcodeOf cfg .pumpCurrent).toNat ∧ be16 (byteAt p) 3 ≠ (opcodeOf cfg .oilPressure).toNat ∧
      be16 (byteAt p) 3 ≠ (opcodeOf cfg .oilTemperature).toNat ∧ be16 (byteAt p) 3 ≠ (opcodeOf cfg .wheelSpeeds).toNat :=
    ⟨fun h => ⟨h _, h _, h _, h _⟩, fun ⟨h1, h2, h3, h4⟩ k => by cases k <;> assumption⟩
  rw [bySensor]
  by_cases hlen : minGeneric ≤ p.length <;> simp [Instr.wf, opIs, hlen, and_assoc]

/-! #### Decoding an encoded instruction -/

theorem decode_encodeSel (cfg : Config) (bufs : Table) (sel : Sel) :
    decode cfg bufs { port := .encIn, bytes := encodeSel sel } = .ok (classifySel sel) := by
  simp [decode, decodeSel_encodeSel, Except.map]

theorem decode_encodeFrame (cfg : Config) (bufs : Table) {f : Frame} (hf : f.wf = true) :
    decode cfg bufs { port := .reasmIn, bytes := encodeFrame f } = .ok (classifyFrame bufs f) := by
  simp [decode, decodeFrame_encodeFrame hf, Except.map]

theorem decode_payload (cfg : Config) (bufs : Table) (p : Payload) :
    decode cfg bufs { port := .decIn, bytes := p } = .ok (classifyPayload cfg p) := rfl

theorem decode_encodeLine (cfg : Config) (bufs : Table) (c : Byte) (ops : List Byte) :
    decode cfg bufs (encodeLine c ops) = decodeStep c.toNat ops := rfl

theorem decodePub_encodeTime (n : Nat) : decodePub (encodeTime n) = .ok (.stepPub n) := by
  cases h : encodeTime n with
  | nil => exact absurd h (encodeTime_ne_nil n)
  | cons b bs => rw [decodePub, ← h, beValue_encodeTime]

/-- Settles O57: each field is read back by its own lemma, and the row's class (its select code, its header and buffer, its
operation code) is what the well-formedness and the fit of the row say. -/
theorem decodeOfEncodeIsTheInstruction : Obligations.DecodeOfEncodeIsTheInstruction := by
  intro cfg bufs i hcfg hw hfit
  cases i <;> simp only [Instr.wf, rowFits, Bool.and_eq_true, Bool.or_eq_true, decide_eq_true_eq, headerIs_iff] at hw hfit
  case encPump => rfl
  case encPres => rfl
  case encTemp => rfl
  case encWheel => rfl
  case encUnknown sel =>
    rw [encode, decode_encodeSel, classifySel, (sensorOf_eq_none_iff sel).mpr hw]
  case reasmEmpty f =>
    rw [encode, decode_encodeFrame _ _ (by simp [Frame.wf, hw]), classifyFrame_of_empty hw]
  case reasmSingle f =>
    obtain ⟨hf, hd, hs, he⟩ := hw
    simp [encode, decode_encodeFrame _ _ hf, classifyFrame_of_data hd, hs, he]
  case reasmStart f =>
    obtain ⟨hf, hd, hs, he⟩ := hw
    simp [encode, decode_encodeFrame _ _ hf, classifyFrame_of_data hd, hs, he]
  case reasmCont f =>
    obtain ⟨hf, hd, hs, he⟩ := hw
    simp [encode, decode_encodeFrame _ _ hf, classifyFrame_of_data hd, hs, he, Option.isSome_iff_ne_none.mp hfit]
  case reasmEnd f =>
    obtain ⟨hf, hd, hs, he⟩ := hw
    simp [encode, decode_encodeFrame _ _ hf, classifyFrame_of_data hd, hs, he, Option.isSome_iff_ne_none.mp hfit]
  case reasmViolation f =>
    obtain ⟨hf, ⟨hd, hs, -⟩ | ⟨hd, hs, -⟩⟩ := hw <;>
      simp [encode, decode_encodeFrame _ _ hf, classifyFrame_of_data hd, hs, Option.isNone_iff_eq_none.mp hfit]
  case decShort p => rw [encode, decode_payload, classifyPayload_of_short hw]
  case decPump p => rw [encode, decode_payload, classifyPayload_of_opIs hw (sensorOfOp_opcodeOf hcfg _), decRow]
  case decPres p => rw [encode, decode_payload, classifyPayload_of_opIs hw (sensorOfOp_opcodeOf hcfg _), decRow]
  case decTemp p => rw [encode, decode_payload, classifyPayload_of_opIs hw (sensorOfOp_opcodeOf hcfg _), decRow]
  case decWheel p => rw [encode, decode_payload, classifyPayload_of_opIs hw (sensorOfOp_opcodeOf hcfg _), decRow]
  case decUnknown p =>
    obtain ⟨hlen, hop⟩ := (decUnknown_wf_iff cfg p).mp (by simpa [Instr.wf, and_assoc] using hw)
    rw [encode, decode_payload, classifyPayload_of_unknown hlen hop]
  case stepIssue ok => cases ok <;> rfl
  case stepRx f => simp [encode, decode_encodeLine, decodeStep, decodeFrame_encodeFrame hw, Except.map]
  case stepPub n => simp [encode, decode_encodeLine, decodeStep, decodePub_encodeTime]
  case stepEnc sel => simp [encode, decode_encodeLine, decodeStep, decodeSel_encodeSel, Except.map]
  case stepReasm f => simp [encode, decode_encodeLine, decodeStep, decodeFrame_encodeFrame hw, Except.map]
  all_goals rfl

/-! #### What the decoder accepts -/

/-- What the decoder says of an offer it accepts: the instruction is well formed, its row fits the table, and but for a
`PUB` it encodes to the offer. -/
def Decoded (cfg : Config) (bufs : Table) (o : Offer) (i : Instr) : Prop :=
  i.wf cfg = true ∧ rowFits bufs i = true ∧ ((∀ n, i ≠ .stepPub n) → encode i = o)

theorem classifySel_decoded (cfg : Config) (bufs : Table) (sel : Sel) :
    Decoded cfg bufs { port := .encIn, bytes := encodeSel sel } (classifySel sel) := by
  cases hk : sensorOf sel with
  | none =>
    rw [classifySel, hk]
    exact ⟨decide_eq_true ((sensorOf_eq_none_iff sel).mp hk), rfl, fun _ => rfl⟩
  | some k =>
    obtain rfl : sel = selOf k := by revert sel; cases k <;> decide
    cases k <;> exact ⟨rfl, rfl, fun _ => rfl⟩

theorem classifyFrame_decoded (cfg : Config) (bufs : Table) {f : Frame} (hf : f.wf = true) :
    Decoded cfg bufs { port := .reasmIn, bytes := encodeFrame f } (classifyFrame bufs f) := by
  by_cases hd : f.data = []
  · rw [classifyFrame_of_empty hd]
    exact ⟨decide_eq_true hd, rfl, fun _ => rfl⟩
  · have hdr := headerIs_iff f
    rw [classifyFrame_of_data hd]
    cases hs : frameStart f <;> cases he : frameEnd f <;> cases hl : lookupBuf f.id bufs <;>
      simp [Decoded, Instr.wf, rowFits, encode, hdr, hf, hd, hs, he, hl]

theorem decRow_decoded {cfg : Config} {p : Payload} {k : Sensor} (hp : opIs cfg p k = true) (bufs : Table) :
    Decoded cfg bufs { port := .decIn, bytes := p } (decRow k p) := by
  cases k <;> exact ⟨hp, rfl, fun _ => rfl⟩

theorem classifyPayload_decoded (cfg : Config) (bufs : Table) (p : Payload) :
    Decoded cfg bufs { port := .decIn, bytes := p } (classifyPayload cfg p) := by
  rcases Nat.lt_or_ge p.length minGeneric with hlen | hlen
  · rw [classifyPayload_of_short hlen]
    exact ⟨decide_eq_true hlen, rfl, fun _ => rfl⟩
  · rcases sensorOfOp_cases cfg (be16 (byteAt p) 3) with ⟨k, hk, hop⟩ | ⟨-, hop⟩
    · have hp : opIs cfg p k = true := (opIs_iff cfg p k).mpr ⟨hlen, hop⟩
      rw [classifyPayload_of_opIs hp (hop ▸ hk)]
      exact decRow_decoded hp bufs
    · rw [classifyPayload_of_unknown hlen hop]
      exact ⟨(decUnknown_wf_iff cfg p).mpr ⟨hlen, hop⟩, rfl, fun _ => rfl⟩

theorem noOperand_eq_ok {i j : Instr} {ops : List Byte} (h : noOperand i ops = .ok j) : j = i ∧ ops = [] := by
  cases ops with
  | nil => exact ⟨(Except.ok.inj h).symm, rfl⟩
  | cons => cases h

theorem decodeIssue_eq_ok {ops : List Byte} {i : Instr} (h : decodeIssue ops = .ok i) :
    ∃ ok, i = .stepIssue ok ∧ ops = [if ok then 1#8 else 0#8] := by
  unfold decodeIssue at h
  split at h
  case h_1 => cases h
  case h_2 b =>
    split at h
    case isTrue hb => exact ⟨true, (Except.ok.inj h).symm, by rw [hb]; rfl⟩
    case isFalse =>
      split at h
      case isTrue hb => exact ⟨false, (Except.ok.inj h).symm, by rw [hb]; rfl⟩
      case isFalse => cases h
  case h_3 => cases h

theorem decodePub_eq_ok {ops : List Byte} {i : Instr} (h : decodePub ops = .ok i) : ∃ n, i = .stepPub n := by
  cases ops with
  | nil => cases h
  | cons b bs => exact ⟨_, (Except.ok.inj h).symm⟩

/-- A trace line's operands are its code's, read by that code's operand decoder (R87). -/
theorem decodeStep_decoded (cfg : Config) (bufs : Table) {c : Byte} {ops : List Byte} {i : Instr}
    (h : decodeStep c.toNat ops = .ok i) : Decoded cfg bufs (encodeLine c ops) i := by
  have code : c = BitVec.ofNat 8 c.toNat := by rw [BitVec.ofNat_toNat, BitVec.setWidth_eq]
  rw [code]
  generalize c.toNat = n at h ⊢
  unfold decodeStep at h
  split at h
  case h_1 =>
    obtain ⟨sel, hsel, rfl⟩ := map_eq_ok_iff.mp h
    exact ⟨rfl, rfl, fun _ => by rw [encode, encodeSel_of_decodeSel hsel]⟩
  case h_2 =>
    obtain ⟨f, hf, rfl⟩ := map_eq_ok_iff.mp h
    obtain ⟨hw, hbytes⟩ := decodeFrame_eq_ok hf
    exact ⟨hw, rfl, fun _ => by rw [encode, hbytes]⟩
  case h_3 =>
    obtain rfl := Except.ok.inj h
    exact ⟨rfl, rfl, fun _ => rfl⟩
  case h_7 =>
    obtain ⟨ok, rfl, rfl⟩ := decodeIssue_eq_ok h
    exact ⟨rfl, rfl, fun _ => rfl⟩
  case h_8 =>
    obtain ⟨f, hf, rfl⟩ := map_eq_ok_iff.mp h
    obtain ⟨hw, hbytes⟩ := decodeFrame_eq_ok hf
    exact ⟨hw, rfl, fun _ => by rw [encode, hbytes]⟩
  case h_11 =>
    obtain ⟨n, rfl⟩ := decodePub_eq_ok h
    exact ⟨rfl, rfl, fun hn => absurd rfl (hn n)⟩
  case h_16 => cases h
  case h_17 => cases h
  all_goals
    obtain ⟨rfl, rfl⟩ := noOperand_eq_ok h
    exact ⟨rfl, rfl, fun _ => rfl⟩

/-- What the decoder accepts, port by port. -/
theorem decode_decoded {cfg : Config} {bufs : Table} {o : Offer} {i : Instr} (h : decode cfg bufs o = .ok i) :
    Decoded cfg bufs o i := by
  obtain ⟨port, bytes⟩ := o
  cases port with
  | encIn =>
    obtain ⟨sel, hsel, rfl⟩ := map_eq_ok_iff.mp h
    obtain rfl := encodeSel_of_decodeSel hsel
    exact classifySel_decoded cfg bufs sel
  | reasmIn =>
    obtain ⟨f, hf, rfl⟩ := map_eq_ok_iff.mp h
    obtain ⟨hw, rfl⟩ := decodeFrame_eq_ok hf
    exact classifyFrame_decoded cfg bufs hw
  | decIn =>
    obtain rfl := Except.ok.inj h
    exact classifyPayload_decoded cfg bufs bytes
  | line =>
    cases bytes with
    | nil => cases h
    | cons c ops => exact decodeStep_decoded cfg bufs h

/-- Settles O58: `decode_decoded`, which needs nothing of the configuration. -/
theorem decodedInstructionsAreWellFormed : Obligations.DecodedInstructionsAreWellFormed :=
  fun _ _ _ _ _ h => decode_decoded h

end Sys2Proof

/-! ### Every step keeps the invariant -/

namespace Sys2Proof.Machine

/-! #### The reassembly table -/

theorem bufferOk_append {b : List Byte} (h : bufferOk b) (c : List Byte) : bufferOk (b ++ c) := by
  obtain ⟨x, tl, rfl, hs, he⟩ := h
  exact ⟨x, tl ++ c, rfl, hs, he⟩

theorem bufferOk_of_start {f : Frame} (hs : frameStart f = true) (he : frameEnd f = false) : bufferOk f.data := by
  cases hd : f.data with
  | nil => simp [frameStart, hd] at hs
  | cons x tl => exact ⟨x, tl, rfl, by simpa [frameStart, hd] using hs, by simpa [frameEnd, hd] using he⟩

theorem TableOk.openBuf {t : Table} (h : TableOk t) (k : Ident) {b : List Byte} (hb : bufferOk b) :
    TableOk (openBuf k b t) where
  rising := openBuf_wf k b h.rising
  opened k' b' hl := by
    by_cases hk : k' = k
    · subst hk
      rw [lookupBuf_openBuf_same] at hl
      exact Option.some.inj hl ▸ hb
    · rw [lookupBuf_openBuf_other hk] at hl
      exact h.opened k' b' hl

theorem TableOk.closeBuf {t : Table} (h : TableOk t) (k : Ident) : TableOk (closeBuf k t) where
  rising := closeBuf_wf k h.rising
  opened k' b' hl := by
    by_cases hk : k' = k
    · subst hk
      simp at hl
    · rw [lookupBuf_closeBuf_other hk] at hl
      exact h.opened k' b' hl

/-- A buffer is opened by a start frame and only appended to (R112 to R115). -/
theorem TableOk.reassemble {t : Table} (h : TableOk t) (f : Frame) : TableOk (reassemble t f).table := by
  rcases reassemble_cases t f with ⟨-, e⟩ | ⟨hs, he, e⟩ | ⟨-, -, e⟩ | ⟨-, -, -, e⟩ | ⟨b, -, -, -, hl, e⟩ |
    ⟨b, -, -, -, -, e⟩ <;> rw [e]
  · exact h
  · exact h.openBuf f.id (bufferOk_of_start hs he)
  · exact h.closeBuf f.id
  · exact h
  · exact h.openBuf f.id (bufferOk_append (h.opened _ _ hl) _)
  · exact h.closeBuf f.id

theorem exec_keeps_tableOk {s t : State} {i : Instr} (hs : TableOk s.reasm) (hw : i.wf s.cfg = true)
    (h : exec i s = .next t) : TableOk t.reasm := by
  rcases exec_reasm_cases hw h with e | ⟨f, -, e⟩
  · exact e ▸ hs
  · exact e ▸ hs.reassemble f

/-! #### The record and the snapshot -/

/-- A publish writes a reading in range to the group of its kind, and stamps the record (R174). -/
theorem DashOk.publish {d : Dash} (h : DashOk d) {r : Reading} (hr : readingInRange r = true) (n : Nat) :
    DashOk (d.publish r n) where
  groups k r' hk := by
    rw [groupOf_publish, groupOf_setGroup] at hk
    split at hk
    case isTrue hkind => exact Option.some.inj hk ▸ ⟨hkind.symm, hr⟩
    case isFalse => exact h.groups k r' hk
  unstamped hl := by simp at hl

/-- A round's end leaves the field groups and the stamp (R176). -/
theorem DashOk.roundEndDash {s : State} (h : DashOk s.dash) : DashOk s.roundEndDash := by
  rcases s.roundEndDash_cases with e | e <;> rw [e]
  · exact ⟨fun k r hk => h.groups k r ((groupOf_countError s.dash k).symm.trans hk),
      fun hl k => (groupOf_countError s.dash k).trans (h.unstamped hl k)⟩
  · exact h

theorem exec_keeps_dashOk {s t : State} {i : Instr} (hs : DashOk s.dash)
    (hpend : ∀ r, s.pend = some r → readingInRange r = true) (h : exec i s = .next t) : DashOk t.dash := by
  cases exec_effect h
  case publish n r hc hp => simpa using hs.publish (hpend r hp) n
  case roundEnd => exact hs.roundEndDash
  all_goals simpa using hs

/-- The renderer's copy is written by `SNAP` alone, from the record (R180). -/
theorem exec_snap_cases {s t : State} {i : Instr} (h : exec i s = .next t) : t.snap = s.snap ∨ t.snap = some s.dash := by
  cases exec_effect h <;> simp

/-! #### The loops and the transport -/

/-- A step that leaves both loops, `RUN`, `CONN` and `EXIT` as they are. -/
theorem ControlOk.frame {s t : State} (h : ControlOk s) (hcst : t.cst = s.cst) (hrst : t.rst = s.rst)
    (hrun : t.run = s.run) (hconn : t.conn = s.conn) (hexit : t.exit = s.exit) : ControlOk t := by
  obtain ⟨hnone, hup, hdown, hleft, hleft'⟩ := h
  rw [← hcst, ← hrst, ← hrun, ← hconn, ← hexit] at *
  exact ⟨hnone, hup, hdown, hleft, hleft'⟩

/-- A step within the collector's loop. -/
theorem ControlOk.loop {s t : State} (h : ControlOk s) (hs : s.cst ≠ .cInit ∧ s.cst ≠ .cExit)
    (ht : t.cst ≠ .cInit ∧ t.cst ≠ .cExit) (hrst : t.rst = s.rst) (hrun : t.run = s.run) (hconn : t.conn = s.conn)
    (hexit : t.exit = s.exit) : ControlOk t where
  notStarted hc := absurd (h.notStarted (hconn ▸ hc)).1 hs.1
  started hc := by
    obtain ⟨-, started, undecided⟩ := h.started (hconn ▸ hc)
    exact ⟨ht.1, hrst ▸ started, hexit ▸ undecided⟩
  released hc := absurd (h.released (hconn ▸ hc)).1 hs.2
  collectorLeft hc := absurd hc ht.2
  rendererLeft hc := hrun ▸ h.rendererLeft (hrst ▸ hc)

theorem exec_keeps_controlOk {s t : State} {i : Instr} (hs : ControlOk s) (h : exec i s = .next t) : ControlOk t := by
  cases exec_effect h
  case start hc he => exact ⟨nofun, fun _ => ⟨nofun, nofun, he⟩, nofun, nofun, nofun⟩
  case connfail hc he =>
    obtain ⟨hcst, hrst, hrun, -⟩ := hs.notStarted hc
    exact ⟨fun _ => ⟨hcst, hrst, hrun, .inr rfl⟩, fun hup => (nomatch hc.symm.trans hup),
      fun hdown => (nomatch hc.symm.trans hdown), hs.collectorLeft, hs.rendererLeft⟩
  case newRound hc hr => exact hs.loop (by simp [hc]) (by simp) rfl rfl rfl rfl
  case collectorLeaves hc hr =>
    exact {
      notStarted := fun hn => nomatch hc.symm.trans (hs.notStarted hn).1
      started := fun hn => ⟨nofun, (hs.started hn).2⟩
      released := fun hn => nomatch hc.symm.trans (hs.released hn).1
      collectorLeft := fun _ => hr
      rendererLeft := hs.rendererLeft }
  case issue hc => exact hs.loop (by simp [hc]) (by simp) rfl rfl rfl rfl
  case issueFails hc => exact hs.loop (by simp [hc]) (by simp) rfl rfl rfl rfl
  case rxAccepts f r hc hf hr ha => exact hs.loop (by simp [hc]) (by simp) rfl rfl rfl rfl
  case timeout hc => exact hs.loop (by simp [hc]) (by simp) (by simp) (by simp) (by simp) (by simp)
  case receiveFails hc => exact hs.loop (by simp [hc]) (by simp) rfl rfl rfl rfl
  case publish n r hc hp => exact hs.loop (by simp [hc]) (by simp) (by simp) (by simp) (by simp) (by simp)
  case roundEnd hc => exact hs.loop (by simp [hc]) (by simp) rfl rfl rfl rfl
  case snap hc hr => exact hs.frame rfl hc.symm rfl rfl rfl
  case rendererLeaves hc hr =>
    exact {
      notStarted := fun hn =>
        have ⟨_, notStarted, _⟩ := hs.notStarted hn
        nomatch hc.symm.trans notStarted
      started := fun hn =>
        have ⟨started, _, undecided⟩ := hs.started hn
        ⟨started, nofun, undecided⟩
      released := fun hn =>
        have ⟨_, left, _⟩ := hs.released hn
        nomatch hc.symm.trans left
      collectorLeft := hs.collectorLeft
      rendererLeft := fun _ => hr }
  case stop hc =>
    exact {
      notStarted := fun hn => nomatch hc.symm.trans hn
      started := hs.started
      released := fun hn => nomatch hc.symm.trans hn
      collectorLeft := fun _ => rfl
      rendererLeft := fun _ => rfl }
  case shutdown hc hr hn =>
    exact {
      notStarted := nofun
      started := nofun
      released := fun _ => ⟨hc, hr, hs.collectorLeft hc, rfl⟩
      collectorLeft := hs.collectorLeft
      rendererLeft := hs.rendererLeft }
  all_goals exact hs.frame rfl rfl rfl rfl rfl

/-! #### The collector's own state (R29, R30) -/

/-- Outside `C_PUB` nothing is pending. -/
theorem CollectorOk.pend_eq_none {s : State} (h : CollectorOk s) (hc : s.cst ≠ .cPub) : s.pend = none :=
  Option.not_isSome_iff_eq_none.mp fun hp => hc (h.pending.mp hp)

/-- A round with a transport error is over, so that there is none in the states of a poll (R151, R156). -/
theorem CollectorOk.roundErr_eq_false {s : State} (h : CollectorOk s)
    (hc : s.cst ≠ .cEnd ∧ s.cst ≠ .cTop ∧ s.cst ≠ .cExit) : s.roundErr = false :=
  Bool.eq_false_iff.mpr fun he => by simpa [hc] using h.errorEndsRound he

/-- A state with nothing pending, outside `C_PUB`, whose round's error mark fits its control state. -/
theorem CollectorOk.of_idle {t : State} (hp : t.pend = none) (hc : t.cst ≠ .cPub)
    (he : t.roundErr = true → t.cst = .cEnd ∨ t.cst = .cTop ∨ t.cst = .cExit) : CollectorOk t where
  pending := by simp [hp, hc]
  pendingOk r hr := by simp [hp] at hr
  errorEndsRound := he

/-- A step that leaves the collector's own state as it is. -/
theorem CollectorOk.frame {s t : State} (h : CollectorOk s) (hcst : t.cst = s.cst) (hpend : t.pend = s.pend)
    (hcfg : t.cfg = s.cfg) (hidx : t.idx = s.idx) (herr : t.roundErr = s.roundErr) : CollectorOk t where
  pending := by rw [hpend, hcst, h.pending]
  pendingOk r hr := by
    rw [State.polled, hcfg, hidx]
    exact h.pendingOk r (hpend ▸ hr)
  errorEndsRound he := hcst ▸ h.errorEndsRound (herr ▸ he)

/-- Under `DISCARD` an accepted reading is of the polled sensor's kind (R155). -/
theorem kindOf_of_accepts {s : State} {r : Reading} (ha : s.accepts r = true) (hd : s.cfg.policy = .discard) :
    kindOf r = s.polled := by
  simpa [State.accepts, hd] using ha

theorem exec_keeps_collectorOk {s t : State} {i : Instr} (hinit : s.conn = .connNone → s.cst = .cInit)
    (hs : CollectorOk s) (h : exec i s = .next t) : CollectorOk t := by
  have idle (hc : s.cst ≠ .cPub) : s.pend = none := hs.pend_eq_none hc
  have noError (hc : s.cst ≠ .cEnd ∧ s.cst ≠ .cTop ∧ s.cst ≠ .cExit) : s.roundErr = false := hs.roundErr_eq_false hc
  cases exec_effect h
  case start hc he => exact .of_idle (idle (by simp [hinit hc])) (by simp) (by simp)
  case newRound hc hr => exact .of_idle rfl (by simp) (by simp)
  case collectorLeaves hc hr => exact .of_idle (idle (by simp [hc])) (by simp) (by simp)
  case issue hc => exact .of_idle (idle (by simp [hc])) (by simp) (by simp [noError, hc])
  case issueFails hc => exact .of_idle (idle (by simp [hc])) (by simp) (by simp)
  case rxAccepts f r hc hf hr ha =>
    exact {
      pending := by simp
      pendingOk := fun r' hr' => Option.some.inj hr' ▸ ⟨hr, kindOf_of_accepts ha⟩
      errorEndsRound := by simp [noError, hc] }
  case timeout hc => exact .of_idle (by simp [idle, hc]) (by simp) (by simp [noError, hc])
  case receiveFails hc => exact .of_idle (idle (by simp [hc])) (by simp) (by simp)
  case publish n r hc hp => exact .of_idle (by simp) (by simp) (by simp [noError, hc])
  case roundEnd hc => exact .of_idle (idle (by simp [hc])) (by simp) (by simp)
  all_goals exact hs.frame rfl rfl rfl rfl rfl

/-! #### The host's side and the invariant -/

/-- What no instruction writes, and how the host's frames change: by one offered outside a poll alone (R41, R210). -/
theorem exec_frame {s t : State} {i : Instr} (h : exec i s = .next t) :
    t.cfg = s.cfg ∧ t.trace = s.trace ∧ t.picks = s.picks ∧ (∃ os, t.out = s.out ++ os) ∧
    (t.held = s.held ∨ ∃ f, i = .stepRx f ∧ s.cst ≠ .cWait ∧ t.held = s.held ++ [f]) := by
  cases exec_effect h
  case keep f hc => exact ⟨rfl, rfl, rfl, ⟨[], by simp⟩, .inr ⟨f, rfl, hc, rfl⟩⟩
  all_goals exact ⟨by simp, by simp, by simp, ⟨_, by simp; rfl⟩, .inl (by simp)⟩

/-- Settles O48: `exec_frame`. -/
theorem constantsAreNeverWrittenAndOutputsOnlyGrow : Obligations.ConstantsAreNeverWrittenAndOutputsOnlyGrow :=
  fun _ _ _ => exec_frame

theorem exec_keeps_inv {s t : State} {i : Instr} (hs : Inv s) (hw : i.wf s.cfg = true) (h : exec i s = .next t) :
    Inv t := by
  obtain ⟨hcfg, -, -, -, hheld⟩ := exec_frame h
  have hdash : DashOk t.dash := exec_keeps_dashOk hs.dash (fun r hr => (hs.collector.pendingOk r hr).1) h
  refine {
    config := hcfg ▸ hs.config
    table := exec_keeps_tableOk hs.table hw h
    dash := hdash
    snapshot := fun x hx => ?snapshot
    control := exec_keeps_controlOk hs.control h
    collector := exec_keeps_collectorOk (fun hc => (hs.control.notStarted hc).1) hs.collector h
    kept := fun f hf => ?kept }
  case snapshot =>
    rcases exec_snap_cases h with e | e
    · exact hs.snapshot x (e ▸ hx)
    · exact Option.some.inj (e.symm.trans hx) ▸ hs.dash
  case kept =>
    rcases hheld with e | ⟨g, rfl, -, e⟩ <;> rw [e] at hf
    · exact hs.kept f hf
    · rcases List.mem_append.mp hf with hf | hf
      · exact hs.kept f hf
      · exact List.mem_singleton.mp hf ▸ hw

/-- The invariant does not speak of the offers to come or of the host's choices, and of the kept frames says only that
each is a frame. -/
theorem Inv.withHost {s : State} (h : Inv s) (tr : List Offer) (n : Nat) {hd : List Frame}
    (hkept : ∀ f ∈ hd, f.wf = true) : Inv { s with trace := tr, held := hd, picks := n } where
  config := h.config
  table := h.table
  dash := h.dash
  snapshot := h.snapshot
  control := ⟨h.control.notStarted, h.control.started, h.control.released, h.control.collectorLeft,
    h.control.rendererLeft⟩
  collector := ⟨h.collector.pending, h.collector.pendingOk, h.collector.errorEndsRound⟩
  kept := hkept

/-- Settles O59: what a step runs is well formed, a decoded line by `decode_decoded` and a kept frame by the invariant. -/
theorem everyStepKeepsTheInvariant : Obligations.EveryStepKeepsTheInvariant := by
  intro s t hs h
  obtain ⟨i, tr, hd, n, hi, hkept, hx⟩ := step_runs h
  have hw : i.wf s.cfg = true := by
    rcases hi with ⟨o, ho⟩ | ⟨f, hf, rfl⟩
    · exact (decode_decoded ho).1
    · exact hs.kept f hf
  exact exec_keeps_inv (hs.withHost tr n fun g hg => hs.kept g (hkept g hg)) hw hx

end Sys2Proof.Machine

/-! ### A continuation (R114) -/

namespace Sys2Proof.Machine

/-- Settles O7: the frame's rule is `reassembleCont` with a buffer open, and its contribution is the slice the rule
writes. -/
theorem continuationAppendsItsDeclaredBytes : Obligations.ContinuationAppendsItsDeclaredBytes := by
  intro s f h tl b hd hs he hl
  have rule : reassemble s.reasm f = reassembleCont s.reasm f :=
    reassemble_of_cont (by simp [hd]) ((frameStart_cons hd).trans hs) ((frameEnd_cons hd).trans he) _
  have row : exec (.reasmCont f) s = .next (s.reasmReport (reassembleCont s.reasm f)) := rfl
  rw [reassembleCont_of_open hl] at rule row
  rw [← contribution_cons hd]
  exact ⟨openBuf f.id (b ++ contribution f) s.reasm, lookupBuf_openBuf_same _ _ _,
    fun k hk => lookupBuf_openBuf_other hk _ _, exec_row_and_line_of_ok row rule rfl⟩

/-! ### The rows at the ports and the trace lines (R85, R110, R130) -/

/-- The row a select code picks at `ENC_IN` is the operation of the trace line with that code, a code that names no
sensor included (R101). -/
theorem exec_classifySel (s : State) (sel : Sel) : exec (classifySel sel) s = exec (.stepEnc sel) s := by
  cases hk : sensorOf sel with
  | none =>
    rw [classifySel, hk]
    simp [exec, execEncUnknown, execStepEnc, State.encodeRequest, enc, hk]
  | some k =>
    obtain rfl : sel = selOf k := by revert sel; cases k <;> decide
    exact exec_classifySel_eq_stepEnc s k

/-- The row of a frame presents that frame to the reassembler. -/
theorem presented_classifyFrame (bufs : Table) (f : Frame) :
    presented (classifyFrame bufs f) = some f ∧ ∀ g, classifyFrame bufs f ≠ .stepRx g := by
  by_cases hd : f.data = []
  · simp [classifyFrame_of_empty hd, presented]
  · rw [classifyFrame_of_data hd]
    split_ifs <;> simp [presented]

/-- The row a frame is at `REASM_IN` is the operation of the trace line with that frame. -/
theorem exec_classifyFrame {s : State} {f : Frame} (hf : f.wf = true) :
    exec (classifyFrame s.reasm f) s = exec (.stepReasm f) s := by
  obtain ⟨hp, hx⟩ := presented_classifyFrame s.reasm f
  rw [exec_reasm_row (classifyFrame_decoded s.cfg s.reasm hf).1 hp hx, exec_stepReasm]

/-- Settles O11: at each port the row is the class of the operand that the line's step carries. -/
theorem portRowsAgreeWithTraceLines : Obligations.PortRowsAgreeWithTraceLines := by
  rintro s bs i j p c (⟨rfl, rfl⟩ | ⟨rfl, rfl⟩ | ⟨rfl, rfl⟩) hi hj
  case inl =>
    obtain ⟨sel, hsel, rfl⟩ := map_eq_ok_iff.mp hi
    obtain ⟨sel', hsel', rfl⟩ := map_eq_ok_iff.mp hj
    obtain rfl := Except.ok.inj (hsel.symm.trans hsel')
    exact exec_classifySel s sel
  case inr.inl =>
    obtain ⟨f, hf, rfl⟩ := map_eq_ok_iff.mp hi
    obtain ⟨f', hf', rfl⟩ := map_eq_ok_iff.mp hj
    obtain rfl := Except.ok.inj (hf.symm.trans hf')
    exact exec_classifyFrame (decodeFrame_eq_ok hf).1
  case inr.inr =>
    obtain rfl := Except.ok.inj hi
    obtain rfl := Except.ok.inj hj
    exact exec_classifyPayload_eq_stepDec s bs

/-! ### A whole sequence of frames (R120) -/

/-- Frames that neither start nor end a sequence on a key append their contributions to its open buffer, in order, and
frames on other keys nothing; by induction on the frames. -/
theorem execAll_stepReasm_of_open {k : Ident} {fs : List Frame}
    (hfs : ∀ f ∈ fs, f.id = k → frameStart f = false ∧ frameEnd f = false) {s : State} {b : List Byte}
    (hl : lookupBuf k s.reasm = some b) :
    ∃ t, execAll (fs.map .stepReasm) s = .next t ∧
      lookupBuf k t.reasm = some (b ++ (fs.filter (fun f => f.id = k)).flatMap contribution) := by
  induction fs generalizing s b with
  | nil => exact ⟨s, rfl, by simpa using hl⟩
  | cons f fs ih =>
    obtain ⟨hf, hfs⟩ := List.forall_mem_cons.mp hfs
    rw [List.map_cons, execAll_cons (exec_stepReasm s f)]
    by_cases hk : f.id = k
    · obtain ⟨hs, he⟩ := hf hk
      subst hk
      obtain ⟨t, ht, hb⟩ := ih hfs (s := s.reasmReport (reassemble s.reasm f)) (lookupBuf_reassemble_of_open hs he hl)
      exact ⟨t, ht, by simpa using hb⟩
    · obtain ⟨t, ht, hb⟩ := ih hfs (s := s.reasmReport (reassemble s.reasm f))
        ((reassemble_other_key (Ne.symm hk)).trans hl)
      exact ⟨t, ht, by simpa [hk] using hb⟩

theorem execAll_append {is js : List Instr} {s u : State} (h : execAll is s = .next u) :
    execAll (is ++ js) s = execAll js u := by
  induction is generalizing s with
  | nil => rw [Host.Outcome.next.inj h, List.nil_append]
  | cons i is ih =>
    obtain ⟨v, hv⟩ := exec_answers_next i s
    rw [execAll_cons hv] at h
    rw [List.cons_append, execAll_cons hv, ih h]

/-- Settles O12: the start frame opens the buffer with its data, `execAll_stepReasm_of_open` is the run in between, and
the end frame returns the buffer with its own contribution. -/
theorem payloadIsStartFrameAndContributions : Obligations.PayloadIsStartFrameAndContributions := by
  intro s f0 fm fs hs0 he0 hid hdm hsm hem hfs
  have opened : lookupBuf f0.id (s.reasmReport (reassemble s.reasm f0)).reasm = some f0.data := by
    rw [State.reasmReport_reasm, reassemble_of_start hs0 he0, reassembleStart, lookupBuf_openBuf_same]
  obtain ⟨u, hu, hb⟩ := execAll_stepReasm_of_open hfs opened
  have ended := (reassemble_of_end hsm hem u.reasm).trans
    (reassembleEnd_of_open ((congrArg (lookupBuf · u.reasm) hid).trans hb))
  refine ⟨u.reasmReport (reassemble u.reasm fm), ?_, by simp [ended], by simp [ended, hid]⟩
  rw [execAll_cons (exec_stepReasm s f0), execAll_append hu, execAll_cons (exec_stepReasm u fm), execAll]

/-! ### What the decoder reads (R58, R119) -/

theorem be16_congr {rd rd' : Nat → Byte} {i : Nat} (h0 : rd i = rd' i) (h1 : rd (i + 1) = rd' (i + 1)) :
    be16 rd i = be16 rd' i := by
  rw [be16, be16, h0, h1]

/-- A sensor's layout reads the bytes from 5 to its minimum length, and none of them in a shorter payload (R80). -/
theorem layoutOf_congr {n : Nat} {rd rd' : Nat → Byte} (hn : 6 ≤ n) (h : ∀ i, 5 ≤ i → i < n → i < 14 → rd i = rd' i)
    (k : Sensor) : layoutOf k n rd = layoutOf k n rd' := by
  cases k with
  | pumpCurrent =>
    rcases Nat.lt_or_ge n 9 with hlt | hle
    · rw [layoutOf, parsePump_of_lt hlt, parsePump_of_lt hlt]
    · have field (i : Nat) (h5 : 5 ≤ i) (h7 : i ≤ 7) : be16 rd i = be16 rd' i :=
        be16_congr (h _ (by omega) (by omega) (by omega)) (h _ (by omega) (by omega) (by omega))
      simp only [layoutOf, parsePump, field 5 (by omega) (by omega), field 7 (by omega) (by omega)]
  | oilPressure => simp only [layoutOf, parsePres, h 5 (by omega) (by omega) (by omega)]
  | oilTemperature => simp only [layoutOf, parseTemp, h 5 (by omega) (by omega) (by omega)]
  | wheelSpeeds =>
    rcases Nat.lt_or_ge n 14 with hlt | hle
    · rw [layoutOf, parseWheel_of_lt hlt, parseWheel_of_lt hlt]
    · have field (i : Nat) (h6 : 6 ≤ i) (h12 : i ≤ 12) : be16 rd i = be16 rd' i :=
        be16_congr (h _ (by omega) (by omega) (by omega)) (h _ (by omega) (by omega) (by omega))
      simp only [layoutOf, parseWheel, field 6 (by omega) (by omega), field 8 (by omega) (by omega),
        field 10 (by omega) (by omega), field 12 (by omega) (by omega)]

/-- `DEC` is the layout its operation code names (R130). -/
theorem decView_of_le {n : Nat} (hn : minGeneric ≤ n) (cfg : Config) (rd : Nat → Byte) :
    decView cfg n rd = (sensorOfOp cfg (be16 rd 3)).elim (none, .unknownOperation) (fun k => layoutOf k n rd) := by
  rw [decView, if_neg (Nat.not_lt.mpr hn)]
  cases sensorOfOp cfg (be16 rd 3) with
  | none => rfl
  | some k => cases k <;> rfl

theorem decView_of_lt {n : Nat} (hn : n < minGeneric) (cfg : Config) (rd : Nat → Byte) :
    decView cfg n rd = (none, .decodeTooShort) := if_pos hn

/-- Settles O21: a payload shorter than 6 bytes is not read at all, and a longer one at 3 and 4 and by its layout. -/
theorem decoderReadsNoByteOutOfRange : Obligations.DecoderReadsNoByteOutOfRange := by
  intro cfg n rd rd' h
  rcases Nat.lt_or_ge n minGeneric with hlt | hle
  · rw [decView_of_lt hlt, decView_of_lt hlt]
  · have h6 : 6 ≤ n := hle
    have code : be16 rd 3 = be16 rd' 3 :=
      be16_congr (h 3 (by omega) (by omega) (by omega) (by omega)) (h 4 (by omega) (by omega) (by omega) (by omega))
    have layout (k : Sensor) : layoutOf k n rd = layoutOf k n rd' :=
      layoutOf_congr hle (fun i h5 hn h14 => h i hn h14 (by omega) (by omega)) k
    simp only [decView_of_le hle, code, layout]

/-- A payload of 14 bytes or more is long enough for every layout, whatever its length (R83). -/
theorem decView_of_long {n m : Nat} (hn : 14 ≤ n) (hm : 14 ≤ m) (cfg : Config) (rd : Nat → Byte) :
    decView cfg n rd = decView cfg m rd := by
  have layout (k : Sensor) : layoutOf k n rd = layoutOf k m rd := by
    cases k with
    | pumpCurrent => exact (parsePump_of_le (by omega) rd).trans (parsePump_of_le (by omega) rd).symm
    | oilPressure => exact (parsePres_of_le (by omega) rd).trans (parsePres_of_le (by omega) rd).symm
    | oilTemperature => exact (parseTemp_of_le (by omega) rd).trans (parseTemp_of_le (by omega) rd).symm
    | wheelSpeeds => exact (parseWheel_of_le hn rd).trans (parseWheel_of_le hm rd).symm
  have longEnough {l : Nat} (hl : 14 ≤ l) : minGeneric ≤ l := Nat.le_trans (by decide) hl
  simp only [decView_of_le (longEnough hn), decView_of_le (longEnough hm), layout]

/-- A length counter that saturates at 14 or more decodes alike (R119). -/
theorem decView_min_length (cfg : Config) (n : Nat) {top : Nat} (htop : 14 ≤ top) (rd : Nat → Byte) :
    decView cfg (min n top) rd = decView cfg n rd := by
  rcases Nat.le_total n top with hle | hle
  · rw [Nat.min_eq_left hle]
  · rw [Nat.min_eq_right hle]
    exact decView_of_long htop (Nat.le_trans htop hle) cfg rd

theorem byteAt_take {room i : Nat} (hi : i < room) (p : Payload) : byteAt (p.take room) i = byteAt p i := by
  simp [byteAt, List.getD_eq_getElem?_getD, hi]

/-- Settles O22: the saturated length compares alike, and the bytes the decoder reads are all kept. -/
theorem storedPayloadDecodesAlike : Obligations.StoredPayloadDecodesAlike := by
  intro cfg p room top hroom htop
  rw [decStored, storePayload, decView_min_length cfg _ htop, dec]
  exact decoderReadsNoByteOutOfRange cfg _ _ _ fun i _ h14 _ _ => byteAt_take (by omega) p

/-! ### Physical values (R137 to R139) -/

/-- A raw count scaled lies between 0 and the scaled maximum. -/
theorem scaled_bounds {n top : Nat} (hn : n ≤ top) {c : Rat} (hc : 0 ≤ c) : 0 ≤ (n : Rat) * c ∧ (n : Rat) * c ≤ top * c :=
  ⟨mul_nonneg (Nat.cast_nonneg n) hc, mul_le_mul_of_nonneg_right (Nat.cast_le.mpr hn) hc⟩

theorem barOf_bounds {raw : Nat} (h : raw ≤ 255) : 0 ≤ barOf raw ∧ barOf raw ≤ 4182 / 1000 := by
  obtain ⟨hlo, hhi⟩ := scaled_bounds h (c := scalePressure) (by norm_num [scalePressure])
  exact ⟨hlo, hhi.trans (by norm_num [scalePressure])⟩

theorem kmhOf_bounds {v : Nat} (h : v ≤ 65535) : 0 ≤ kmhOf v ∧ kmhOf v ≤ 1022346 / 1000 := by
  obtain ⟨hlo, hhi⟩ := scaled_bounds h (c := scaleWheel) (by norm_num [scaleWheel])
  exact ⟨hlo, hhi.trans (by norm_num [scaleWheel])⟩

/-- Settles O23: the examples are computed, and each kind's bounds are those of its scaled raw range. -/
theorem physicalValuesAreExactAndBounded : Obligations.PhysicalValuesAreExactAndBounded := by
  refine ⟨⟨?_, ?_, ?_⟩, fun r hr => ?_⟩
  · norm_num [barOf, scalePressure]
  · norm_num [kmhOf, scaleWheel]
  · norm_num [fahrenheitOf]
  · cases r with
    | pump p q => rfl
    | pressure raw =>
      refine ⟨rfl, fun v hv => ?_⟩
      obtain rfl := List.mem_singleton.mp hv
      exact barOf_bounds (of_decide_eq_true hr)
    | temperature c =>
      refine ⟨rfl, ?_⟩
      norm_num [fahrenheitOf]
    | wheels fr fl rr rl =>
      obtain ⟨hfr, hfl, hrr, hrl⟩ := of_decide_eq_true hr
      refine ⟨rfl, fun v hv => ?_⟩
      simp only [physical, List.mem_cons, List.not_mem_nil, or_false] at hv
      obtain rfl | rfl | rfl | rfl := hv
      · exact kmhOf_bounds hfr
      · exact kmhOf_bounds hfl
      · exact kmhOf_bounds hrr
      · exact kmhOf_bounds hrl

/-! ### Statuses a poll absorbs (R209) -/

/-- Settles O30: an ignored frame reports `OK`, and so does an accepted reading; in the case that is left the poll waits
on, and no more than events are added to the outputs. -/
theorem absorbedStatusesKeepThePollWaiting : Obligations.AbsorbedStatusesKeepThePollWaiting := by
  intro s t f rep hc h hrep hne
  cases hf : isResponse f with
  | false =>
    obtain rfl := Host.Outcome.next.inj ((exec_stepRx_of_ignored hc hf).symm.trans h)
    obtain rfl := Option.some.inj hrep
    exact absurd rfl hne
  | true =>
    obtain rfl := Host.Outcome.next.inj ((exec_stepRx_of_response hc hf).symm.trans h)
    rcases takeFrame_waits_or_accepts s f with ⟨st, os, hos, e⟩ | ⟨r, -, -, e⟩ <;> rw [e] at hrep ⊢ <;>
      obtain rfl := Option.some.inj hrep
    · exact ⟨hc, rfl, rfl, rfl, rfl, by simp [countP_evts isPollDone_evt hos], rfl⟩
    · exact absurd rfl hne

end Sys2Proof.Machine

/-! ### Steps that are enabled, by their results -/

namespace Sys2Proof.Machine

/-- `START` (R236). -/
theorem exec_stepStart_of_enabled {s : State} (hc : s.conn = .connNone) (he : s.exit = none) :
    exec .stepStart s =
      .next ({ s with conn := .connUp, run := true, cst := .cTop, rst := .rTop }.answer .ok none) :=
  if_pos ⟨hc, he⟩

/-- `ISSUE ok` (R151). -/
theorem exec_stepIssue_of_sent {s : State} (hc : s.cst = .cIssue) :
    exec (.stepIssue true) s =
      .next ({ s.emit [.tx (requestFrame s.polled)] with cst := .cWait }.answer .ok none) := by
  simp [exec, execStepIssue, hc]

/-- `ISSUE fail` (R151). -/
theorem exec_stepIssue_of_failed {s : State} (hc : s.cst = .cIssue) :
    exec (.stepIssue false) s = .next (s.emit [.tx (requestFrame s.polled)]).abortRound := by
  simp [exec, execStepIssue, hc]

/-- A second poll (R157; log 4). -/
theorem exec_stepIssue_of_wait {s : State} (hc : s.cst = .cWait) (ok : Bool) :
    exec (.stepIssue ok) s = .next { s with fault := some .pollBusy } := by
  simp [exec, execStepIssue, hc]

/-- `RXERR` (R156). -/
theorem exec_stepRxerr_of_wait {s : State} (hc : s.cst = .cWait) : exec .stepRxerr s = .next s.abortRound := if_pos hc

/-- `END` (R176). -/
theorem exec_stepEnd_of_end {s : State} (hc : s.cst = .cEnd) :
    exec .stepEnd s = .next ({ s with dash := s.roundEndDash, cst := .cTop }.answer .ok none) :=
  if_pos hc

/-- `SHUTDOWN` (R238). -/
theorem exec_stepShutdown_of_left {s : State} (hc : s.cst = .cExit) (hr : s.rst = .rExit) (hn : s.conn = .connUp) :
    exec .stepShutdown s = .next
      (({ s with conn := .connDown, exit := some .exitOk }.emit [.disconnect, .exitOut .exitOk]).answer .ok none) :=
  if_pos ⟨hc, hr, hn⟩

end Sys2Proof.Machine

/-! ### The requests of a round (R172, R185) -/

namespace Sys2Proof.Machine

/-- The sensors the round may still send a request to, in its order: the polled one and those after it before the send,
those after it during the poll and before the publish. -/
def State.remaining (s : State) : List Sensor :=
  match s.cst with
  | .cIssue => (orderList s.cfg.roundOrder).drop s.idx.val
  | .cWait => (orderList s.cfg.roundOrder).drop (s.idx.val + 1)
  | .cPub => (orderList s.cfg.roundOrder).drop (s.idx.val + 1)
  | .cInit => []
  | .cTop => []
  | .cEnd => []
  | .cExit => []

theorem State.remaining_sublist (s : State) : s.remaining.Sublist (orderList s.cfg.roundOrder) := by
  unfold State.remaining
  split
  case h_1 => exact List.drop_sublist _ _
  case h_2 => exact List.drop_sublist _ _
  case h_3 => exact List.drop_sublist _ _
  all_goals exact List.nil_sublist _

theorem orderList_drop (o : RoundOrder) (i : Fin 4) :
    (orderList o).drop i.val = orderAt o i :: (orderList o).drop (i.val + 1) := by
  fin_cases i <;> rfl

/-- Before the send the polled sensor is the first. -/
theorem State.remaining_of_issue {s : State} (hc : s.cst = .cIssue) :
    s.remaining = s.polled :: (orderList s.cfg.roundOrder).drop (s.idx.val + 1) := by
  rw [State.remaining, hc]
  exact orderList_drop s.cfg.roundOrder s.idx

theorem State.remaining_of_wait {s : State} (hc : s.cst = .cWait) :
    s.remaining = (orderList s.cfg.roundOrder).drop (s.idx.val + 1) := by
  rw [State.remaining, hc]

theorem State.remaining_of_pub {s : State} (hc : s.cst = .cPub) :
    s.remaining = (orderList s.cfg.roundOrder).drop (s.idx.val + 1) := by
  rw [State.remaining, hc]

/-- `next_poll()` goes on to the sensors after the polled one (R175). -/
theorem State.remaining_nextPoll (s : State) :
    s.nextPoll.remaining = (orderList s.cfg.roundOrder).drop (s.idx.val + 1) := by
  by_cases hi : s.idx.val < 3
  · rw [State.nextPoll_more hi]
    have hidx : (s.idx + 1).val = s.idx.val + 1 := Fin.val_add_one_of_lt (Fin.lt_def.mpr hi)
    simp only [State.remaining, hidx]
  · rw [State.nextPoll_last hi, List.drop_eq_nil_of_le]
    · rfl
    · simp [orderList]; omega

/-- Between the states `s` and `t` requests went out to the sensors `ks`, the next ones of the round in its order. -/
structure Requested (s t : State) (ks : List Sensor) : Prop where
  sent : ∃ os, t.out = s.out ++ os ∧ os.filter isTx = ks.map (fun k => Output.tx (requestFrame k))
  order : (ks ++ t.remaining).Sublist s.remaining

theorem Requested.refl (s : State) : Requested s s [] := ⟨⟨[], by simp, rfl⟩, List.Sublist.refl _⟩

theorem Requested.trans {s u t : State} {ks ls : List Sensor} (h : Requested s u ks) (h' : Requested u t ls) :
    Requested s t (ks ++ ls) := by
  obtain ⟨⟨os, hos, hks⟩, horder⟩ := h
  obtain ⟨⟨os', hos', hls⟩, horder'⟩ := h'
  refine ⟨⟨os ++ os', by rw [hos', hos, List.append_assoc], by rw [List.filter_append, hks, hls, List.map_append]⟩, ?_⟩
  rw [List.append_assoc]
  exact (horder'.append_left ks).trans horder

/-- A step that presents no request and goes on to no sensor it had not still before it. -/
theorem Requested.none_sent {s t : State} {os : List Output} (hout : t.out = s.out ++ os) (hos : os.countP isTx = 0)
    (hrem : t.remaining.Sublist s.remaining) : Requested s t [] :=
  ⟨⟨os, hout, by simpa using List.countP_eq_zero.mp hos⟩, hrem⟩

/-- `ISSUE`, whether the send succeeds or not, requests the polled sensor and leaves those after it at most (R151). -/
theorem Requested.polled_sent {s t : State} {os : List Output} (hc : s.cst = .cIssue)
    (hout : t.out = s.out ++ (.tx (requestFrame s.polled) :: os)) (hos : os.countP isTx = 0)
    (hrem : t.remaining.Sublist ((orderList s.cfg.roundOrder).drop (s.idx.val + 1))) : Requested s t [s.polled] := by
  refine ⟨⟨_, hout, ?_⟩, ?_⟩
  · have hnone : os.filter isTx = [] := by simpa using List.countP_eq_zero.mp hos
    rw [List.filter_cons_of_pos rfl, hnone, List.map_singleton]
  · rw [State.remaining_of_issue hc]
    exact hrem.cons_cons _

/-- A step that starts no round requests the next sensor of the round or none. -/
theorem exec_requested {s t : State} {i : Instr} (htop : i = .stepTop → s.run = false) (h : exec i s = .next t) :
    ∃ ks, Requested s t ks := by
  cases exec_effect h
  case newRound hc hr => exact absurd (hr.symm.trans (htop rfl)) (by decide)
  case issue hc => exact ⟨_, .polled_sent hc rfl rfl (List.Sublist.refl _)⟩
  case issueFails hc => exact ⟨_, .polled_sent (os := [_]) hc (by simp; rfl) rfl (List.nil_sublist _)⟩
  case reasm f r hp hr => exact ⟨_, .none_sent rfl (countP_evts isTx_evt (eventOf_evts _)) (List.Sublist.refl _)⟩
  case rxWaits f st os hc hf hos => exact ⟨_, .none_sent rfl (countP_evts isTx_evt hos) (List.Sublist.refl _)⟩
  case rxAccepts f r hc hf hr ha =>
    refine ⟨_, .none_sent rfl rfl ?_⟩
    rw [State.remaining_of_wait hc]
    exact List.Sublist.refl _
  case timeout hc =>
    refine ⟨_, .none_sent (by simp; rfl) rfl ?_⟩
    rw [State.remaining_of_wait hc, State.remaining_nextPoll]
    exact List.Sublist.refl _
  case publish n r hc hp =>
    refine ⟨_, .none_sent (os := []) (by simp) rfl ?_⟩
    rw [State.remaining_of_pub hc, State.remaining_nextPoll]
    exact List.Sublist.refl _
  case start hc he => exact ⟨_, .none_sent (os := []) (by simp) rfl (List.nil_sublist _)⟩
  case collectorLeaves hc hr => exact ⟨_, .none_sent (os := []) (by simp) rfl (List.nil_sublist _)⟩
  case receiveFails hc => exact ⟨_, .none_sent rfl rfl (List.nil_sublist _)⟩
  case roundEnd hc => exact ⟨_, .none_sent (os := []) (by simp) rfl (List.nil_sublist _)⟩
  case connfail hc he => exact ⟨_, .none_sent rfl rfl (List.Sublist.refl _)⟩
  case snap hc hr => exact ⟨_, .none_sent rfl rfl (List.Sublist.refl _)⟩
  case shutdown hc hr hn => exact ⟨_, .none_sent rfl rfl (List.Sublist.refl _)⟩
  all_goals exact ⟨_, .none_sent (os := []) (by simp) rfl (List.Sublist.refl _)⟩

/-- Steps among which no round starts, there being no `TOP` or `RUN` being false for good, request sensors of the round
in its order, by induction on their list. -/
theorem execAll_requested {is : List Instr} {s t : State}
    (hnone : Instr.stepTop ∉ is ∨ (s.conn ≠ .connNone ∧ s.run = false)) (h : execAll is s = .next t) :
    ∃ ks, Requested s t ks := by
  induction is generalizing s with
  | nil => exact ⟨[], Host.Outcome.next.inj h ▸ .refl s⟩
  | cons i is ih =>
    obtain ⟨u, hu⟩ := exec_answers_next i s
    rw [execAll_cons hu] at h
    have htop : i = .stepTop → s.run = false := fun hi =>
      hnone.elim (fun hno => absurd (hi ▸ List.mem_cons_self) hno) And.right
    have hrest : Instr.stepTop ∉ is ∨ (u.conn ≠ .connNone ∧ u.run = false) :=
      hnone.imp (fun hno hmem => hno (List.mem_cons_of_mem i hmem))
        fun ⟨hn, hr⟩ => ⟨exec_conn_ne_none hn hu, exec_run_stays_false hn hr hu⟩
    obtain ⟨ks, hks⟩ := exec_requested htop hu
    obtain ⟨ls, hls⟩ := ih hrest h
    exact ⟨ks ++ ls, hks.trans hls⟩

/-- Settles O37: the sensors requested are a part of those that were left of the round. -/
theorem roundPollsEachSensorAtMostOnceInOrder : Obligations.RoundPollsEachSensorAtMostOnceInOrder := by
  intro is s t _ hno h
  obtain ⟨ks, ⟨os, hout, hsent⟩, horder⟩ := execAll_requested (.inl hno) h
  refine ⟨ks, ((List.sublist_append_left ks t.remaining).trans horder).trans s.remaining_sublist, ?_⟩
  rw [hout, List.drop_left, hsent]
  simp only [requestFrame_eq]

/-- Settles O53: after the stop no round starts, and at most four sensors are left of the one that runs. -/
theorem afterStopAtMostFourMoreRequests : Obligations.AfterStopAtMostFourMoreRequests := by
  intro is s t _ hconn hrun h
  obtain ⟨ks, ⟨os, hout, hsent⟩, horder⟩ := execAll_requested (.inr ⟨by simp [hconn], hrun⟩) h
  have hlen : ks.length ≤ 4 :=
    (((List.sublist_append_left ks t.remaining).trans horder).trans s.remaining_sublist).length_le
  have hcount : os.countP isTx = ks.length := by rw [List.countP_eq_length_filter, hsent, List.length_map]
  rw [hout, List.countP_append, hcount]
  omega

/-! ### Snapshots (R66) -/

theorem exec_dash_of_not_collector {s t : State} {i : Instr} (ha : agentOf i ≠ .collector) (h : exec i s = .next t) :
    t.dash = s.dash := by
  rcases exec_dash_cases h with e | ⟨n, rfl, -⟩ | ⟨rfl, -⟩
  · exact e
  · exact absurd rfl ha
  · exact absurd rfl ha

theorem execAll_dash_of_not_collector {is : List Instr} {s t : State} (ha : ∀ i ∈ is, agentOf i ≠ .collector)
    (h : execAll is s = .next t) : t.dash = s.dash := by
  induction is generalizing s with
  | nil => rw [Host.Outcome.next.inj h]
  | cons i is ih =>
    obtain ⟨hi, his⟩ := List.forall_mem_cons.mp ha
    obtain ⟨u, hu⟩ := exec_answers_next i s
    rw [execAll_cons hu] at h
    exact (ih his h).trans (exec_dash_of_not_collector hi hu)

/-- Settles O40: a snapshot is the record, which the steps between leave as it is. -/
theorem snapshotsWithNoCollectorStepBetweenAreEqual : Obligations.SnapshotsWithNoCollectorStepBetweenAreEqual := by
  intro is s t u v ha hs hr ht hu hus hur hv
  obtain rfl := Host.Outcome.next.inj ((exec_stepSnap_of_run hs hr).symm.trans ht)
  obtain rfl := Host.Outcome.next.inj ((exec_stepSnap_of_run hus hur).symm.trans hv)
  have same : u.dash = s.dash := (execAll_dash_of_not_collector ha hu :)
  exact ⟨congrArg some same, congrArg some same⟩

/-! ### The fault mark (R40, R157, R208) -/

/-- The fault mark is set by a second poll alone, and cleared by nothing. -/
theorem exec_fault_cases {s t : State} {i : Instr} (h : exec i s = .next t) :
    t.fault = s.fault ∨ (s.cst = .cWait ∧ (∃ ok, i = .stepIssue ok) ∧ t.fault = some .pollBusy) := by
  cases exec_effect h
  case secondPoll ok hc => exact .inr ⟨hc, ⟨ok, rfl⟩, rfl⟩
  all_goals exact .inl (by simp)

/-- Settles O47: `exec_fault_cases`, a mark already set being set to the same again. -/
theorem secondPollAloneSetsTheFaultMarkForGood : Obligations.SecondPollAloneSetsTheFaultMarkForGood := by
  refine ⟨fun s ok hc => exec_stepIssue_of_wait hc ok, fun s t i h => ?_⟩
  rcases exec_fault_cases h with e | ⟨hc, hi, e⟩
  · exact ⟨fun hne => absurd e hne, fun _ => e⟩
  · exact ⟨fun _ => ⟨hc, hi⟩, fun hs => e.trans hs.symm⟩

end Sys2Proof.Machine

/-! ### The way to the clean end after the stop (R185, R250) -/

namespace Sys2Proof.Machine

/-- The steps with which the agents and a host that lets every poll time out come to the end (R185, decision D22). -/
def isClosing (i : Instr) : Prop :=
  i ∈ [Instr.stepTop, .stepIssue true, .stepTmo, .stepEnd, .stepSnap, .stepShutdown] ∨ ∃ n, i = .stepPub n

/-- At most `n` closing steps lead from `s` to the clean end, with the fault mark and the renderer's copy as they are. -/
def CleanEndWithin (n : Nat) (s : State) : Prop :=
  ∃ (is : List Instr) (t : State), is.length ≤ n ∧ (∀ i ∈ is, isClosing i) ∧ execAll is s = .next t ∧
    t.exit = some .exitOk ∧ t.conn = .connDown ∧ t.cst = .cExit ∧ t.rst = .rExit ∧ t.fault = s.fault ∧ t.snap = s.snap

theorem CleanEndWithin.mono {n m : Nat} {s : State} (h : CleanEndWithin n s) (hle : n ≤ m) : CleanEndWithin m s := by
  obtain ⟨is, t, hlen, hend⟩ := h
  exact ⟨is, t, hlen.trans hle, hend⟩

/-- One closing step before the others. -/
theorem CleanEndWithin.step {n : Nat} {s u : State} {i : Instr} (hu : exec i s = .next u) (hi : isClosing i)
    (hfault : u.fault = s.fault) (hsnap : u.snap = s.snap) (h : CleanEndWithin n u) : CleanEndWithin (n + 1) s := by
  obtain ⟨is, t, hlen, his, hrun, hexit, hconn, hcst, hrst, hf, hs⟩ := h
  exact ⟨i :: is, t, Nat.succ_le_succ hlen, List.forall_mem_cons.mpr ⟨hi, his⟩, (execAll_cons hu).trans hrun, hexit,
    hconn, hcst, hrst, hf.trans hfault, hs.trans hsnap⟩

/-- Connected, `RUN` false, and the renderer started: what the stop leaves, and every closing step but the last keeps. -/
structure Stopping (s : State) : Prop where
  connected : s.conn = .connUp
  stopped : s.run = false
  renderer : s.rst = .rTop ∨ s.rst = .rExit

/-- Both loops left: `SHUTDOWN` (R238). -/
theorem cleanEnd_of_both_left {s : State} (hs : Stopping s) (hc : s.cst = .cExit) (hr : s.rst = .rExit) :
    CleanEndWithin 1 s :=
  ⟨[.stepShutdown], _, Nat.le_refl 1, by simp [isClosing],
    execAll_cons (exec_stepShutdown_of_left hc hr hs.connected), rfl, rfl, hc, hr, rfl, rfl⟩

/-- The collector's loop left: the renderer leaves its own, if it has not yet (R180). -/
theorem cleanEnd_of_collector_left {s : State} (hs : Stopping s) (hc : s.cst = .cExit) : CleanEndWithin 2 s := by
  rcases hs.renderer with hr | hr
  · refine .step (exec_stepSnap_of_not_run hr hs.stopped) (by simp [isClosing]) rfl rfl ?_
    exact cleanEnd_of_both_left ⟨hs.connected, hs.stopped, .inr rfl⟩ hc rfl
  · exact (cleanEnd_of_both_left hs hc hr).mono (by omega)

/-- At the top the collector finds `RUN` false (R171). -/
theorem cleanEnd_of_top {s : State} (hs : Stopping s) (hc : s.cst = .cTop) : CleanEndWithin 3 s := by
  refine .step (exec_stepTop_of_not_run hc hs.stopped) (by simp [isClosing]) rfl rfl ?_
  exact cleanEnd_of_collector_left ⟨hs.connected, hs.stopped, hs.renderer⟩ rfl

/-- The round's end leads to the top (R176). -/
theorem cleanEnd_of_end {s : State} (hs : Stopping s) (hc : s.cst = .cEnd) : CleanEndWithin 4 s := by
  refine .step (exec_stepEnd_of_end hc) (by simp [isClosing]) rfl rfl ?_
  exact cleanEnd_of_top ⟨hs.connected, hs.stopped, hs.renderer⟩ rfl

theorem Stopping.nextPoll {s : State} (hs : Stopping s) : Stopping s.nextPoll :=
  ⟨by simpa using hs.connected, by simpa using hs.stopped, by simpa using hs.renderer⟩

/-- A poll times out and goes on to the next sensor or the round's end (R154). -/
theorem cleanEnd_of_wait {n : Nat} {s : State} (hs : Stopping s) (hc : s.cst = .cWait)
    (hnext : ∀ u : State, Stopping u → u.idx = s.idx → CleanEndWithin n u.nextPoll) : CleanEndWithin (n + 1) s := by
  refine .step (exec_stepTmo_of_wait hc) (by simp [isClosing]) (by simp) (by simp) (hnext _ ?_ rfl)
  exact ⟨hs.connected, hs.stopped, hs.renderer⟩

/-- A request is sent, and its poll times out. -/
theorem cleanEnd_of_issue {n : Nat} {s : State} (hs : Stopping s) (hc : s.cst = .cIssue)
    (hnext : ∀ u : State, Stopping u → u.idx = s.idx → CleanEndWithin n u.nextPoll) : CleanEndWithin (n + 2) s := by
  refine .step (exec_stepIssue_of_sent hc) (by simp [isClosing]) rfl rfl (cleanEnd_of_wait ?_ rfl hnext)
  exact ⟨hs.connected, hs.stopped, hs.renderer⟩

/-- With `m` sensors after the polled one, two steps for each and the round's end, by induction on `m`. -/
theorem cleanEnd_of_nextPoll (m : Nat) : ∀ s : State, Stopping s → s.idx.val + m = 3 →
    CleanEndWithin (4 + 2 * m) s.nextPoll := by
  induction m with
  | zero =>
    intro s hs hm
    exact cleanEnd_of_end hs.nextPoll (by rw [State.nextPoll_last (by omega)])
  | succ m ih =>
    intro s hs hm
    have hi : s.idx.val < 3 := by omega
    have hidx : (s.idx + 1).val = s.idx.val + 1 := Fin.val_add_one_of_lt (Fin.lt_def.mpr hi)
    refine cleanEnd_of_issue (n := 4 + 2 * m) hs.nextPoll (by rw [State.nextPoll_more hi]) fun u hu hui => ih u hu ?_
    rw [hui, State.nextPoll_more hi, hidx]
    omega

/-- Settles O52: from each control state the steps above, the longest way being that from the first sensor's request. -/
theorem afterStopTwelveStepsReachTheCleanEnd : Obligations.AfterStopTwelveStepsReachTheCleanEnd := by
  intro s hinv hconn hrun
  obtain ⟨hcst, hrst, -⟩ := hinv.control.started hconn
  have hs : Stopping s := ⟨hconn, hrun, by cases h : s.rst <;> simp_all⟩
  have next (u : State) (hu : Stopping u) : CleanEndWithin 10 u.nextPoll :=
    (cleanEnd_of_nextPoll (3 - u.idx.val) u hu (by omega)).mono (by omega)
  suffices CleanEndWithin 12 s by exact this
  cases hc : s.cst with
  | cInit => exact absurd hc hcst
  | cTop => exact (cleanEnd_of_top hs hc).mono (by omega)
  | cIssue => exact cleanEnd_of_issue hs hc fun u hu _ => next u hu
  | cWait => exact (cleanEnd_of_wait hs hc fun u hu _ => next u hu).mono (by omega)
  | cPub =>
    obtain ⟨r, hp⟩ := Option.isSome_iff_exists.mp (hinv.collector.pending.mpr hc)
    refine (CleanEndWithin.step (exec_stepPub_of_pending hc hp 0) (.inr ⟨0, rfl⟩) (by simp) (by simp)
      (next _ ?_)).mono (by omega)
    exact ⟨hconn, hrun, hs.renderer⟩
  | cEnd => exact (cleanEnd_of_end hs hc).mono (by omega)
  | cExit => exact (cleanEnd_of_collector_left hs hc).mono (by omega)

end Sys2Proof.Machine

/-! ### Single operations and steps, each with its whole next state -/

namespace Sys2Proof.Machine

/-! #### The encoder, the reassembler and the decoder -/

/-- Settles O2: by `sensorOf_eq_none_iff` the code names no sensor. -/
theorem unknownSelectCodeBuildsNoFrame : Obligations.UnknownSelectCodeBuildsNoFrame := by
  intro s sel hsel
  have line : exec (.stepEnc sel) s = .next (s.answer .unknownSensor none) := by
    simp [exec, execStepEnc, State.encodeRequest, enc, (sensorOf_eq_none_iff sel).mpr hsel]
  exact ⟨rfl, line⟩

/-- Settles O4: the frame's rule is `reassembleEmpty`, on the row and on the line. -/
theorem emptyFrameIsReportedAndDropped : Obligations.EmptyFrameIsReportedAndDropped := by
  intro s f hd t
  refine ⟨rfl, ?_⟩
  rw [exec_stepReasm, reassemble_of_empty hd]
  rfl

/-- Settles O14: the length is checked before any byte is read. -/
theorem payloadUnderSixBytesIsTooShort : Obligations.PayloadUnderSixBytesIsTooShort := by
  intro s p hlen
  refine ⟨rfl, ?_⟩
  rw [exec_stepDec, dec, decView_of_lt hlen]
  rfl

/-- Settles O19: the class of the payload is the row `DEC.UNKNOWN`, and the line does what the row does. -/
theorem unknownOperationCodeDecodesToNothing : Obligations.UnknownOperationCodeDecodesToNothing := by
  intro s b0 b1 b2 b3 b4 b5 rest hpump hpres htemp hwheel t
  have unknown : classifyPayload s.cfg (b0 :: b1 :: b2 :: b3 :: b4 :: b5 :: rest) =
      .decUnknown (b0 :: b1 :: b2 :: b3 :: b4 :: b5 :: rest) :=
    classifyPayload_of_unknown (by simp [minGeneric]) fun k => by cases k <;> assumption
  refine ⟨rfl, ?_⟩
  rw [← exec_classifyPayload_eq_stepDec, unknown]
  rfl

/-! #### The poll sequencer -/

/-- Settles O24: the request is `requestFrame` of the polled sensor, and a failed send is `State.abortRound`. -/
theorem issueSendsTheRequestAndWaits : Obligations.IssueSendsTheRequestAndWaits := by
  intro s hc k f
  have hf : requestFrame s.polled = f := requestFrame_eq k
  rw [exec_stepIssue_of_sent hc, exec_stepIssue_of_failed hc, hf]
  refine ⟨rfl, ?_⟩
  simp [State.abortRound, State.emit, State.polled, k]

/-- Settles O26: `accept(r)` compares kinds under `DISCARD` and nothing under `ACCEPT_EMBEDDED`. -/
theorem kindCheckOfAReading : Obligations.KindCheckOfAReading := by
  refine fun s r => ⟨fun hd => ?_, fun ha => ?_⟩
  · rw [State.accepts, hd]
    exact decide_eq_true_iff
  · rw [State.accepts, ha]

/-- Settles O28: `State.abortRound`, written out. -/
theorem receiveFailureEndsPollAndRound : Obligations.ReceiveFailureEndsPollAndRound :=
  fun _ hc => exec_stepRxerr_of_wait hc

/-- Settles O29: none of the steps named is enabled there, and the record's two writers are enabled in `C_PUB` and
`C_END`. -/
theorem waitAdmitsOnlyFramesFailureAndTimeout : Obligations.WaitAdmitsOnlyFramesFailureAndTimeout := by
  refine ⟨fun s hc => ⟨fun n => ⟨?_, ?_, ?_⟩, fun i t _ h => ?record⟩, fun s hc => ?outside⟩
  · exact exec_stepTop_of_not_top (by simp [hc])
  · exact exec_stepPub_of_not_pub (by simp [hc]) n
  · exact exec_stepEnd_of_not_end (by simp [hc])
  case record =>
    rcases exec_dash_cases h with e | ⟨n, -, hp⟩ | ⟨-, he⟩
    · exact e
    · exact nomatch hc.symm.trans hp
    · exact nomatch hc.symm.trans he
  case outside =>
    exact ⟨exec_stepRx_of_not_wait hc, exec_stepTmo_of_not_wait hc, exec_stepRxerr_of_not_wait hc⟩

/-! #### The collector's round and the renderer -/

/-- Settles O32: the two results of `TOP`, by the value of `RUN`. -/
theorem topStartsARoundOrLeavesTheLoop : Obligations.TopStartsARoundOrLeavesTheLoop :=
  fun _ hc => ⟨exec_stepTop_of_run hc, exec_stepTop_of_not_run hc⟩

/-- Settles O33: the record written is `Dash.publish`, and `next_poll()` goes on by whether a sensor is left. -/
theorem publishWritesOneGroupCountAndStamp : Obligations.PublishWritesOneGroupCountAndStamp := by
  intro s r n hc hp
  refine ⟨s.dash.publish r n, BitVec.ofNat 64 n, fun k => ?groups, ?count, by simp, rfl, by simp, fun hi => ?more,
    fun hi => ?last⟩
  case groups => rw [groupOf_publish, groupOf_setGroup]
  case count => simp
  case more =>
    rw [exec_stepPub_of_pending hc hp, State.nextPoll_more (by exact hi)]
    rfl
  case last =>
    have noneLeft : ¬s.idx.val < 3 := by rw [hi]; decide
    rw [exec_stepPub_of_pending hc hp, State.nextPoll_last (by exact noneLeft)]
    rfl

/-- Settles O35: the count written is that of `State.roundEndDash`, by whether the round was an error round. -/
theorem roundEndCountsAnErrorRoundOnce : Obligations.RoundEndCountsAnErrorRoundOnce := by
  intro s hc
  refine ⟨s.roundEndDash.err, ?whole, fun hbad => ?counted, fun herr hok => ?notCounted⟩
  case whole =>
    have hdash : { s.dash with err := s.roundEndDash.err } = s.roundEndDash := by
      rcases s.roundEndDash_cases with e | e <;> simp [e, Dash.countError]
    rw [exec_stepEnd_of_end hc, hdash]
    rfl
  case counted =>
    have errorRound : (s.roundErr || !s.roundOk) = true := by simpa using hbad
    rw [State.roundEndDash, if_pos errorRound, Dash.countError_err, BitVec.toNat_add]
    rfl
  case notCounted => simp [State.roundEndDash, herr, hok]

/-- Settles O38: the two results of `SNAP`, by the value of `RUN`; the renderer is in `R_TOP` already. -/
theorem snapshotCopiesTheWholeRecord : Obligations.SnapshotCopiesTheWholeRecord := by
  refine fun s hc => ⟨fun hr => ?_, exec_stepSnap_of_not_run hc⟩
  rw [exec_stepSnap_of_run hc hr, ← hc]
  rfl

/-! #### Start and the end of a run -/

/-- Settles O42: `START`, where it is enabled. -/
theorem startBringsUpBothLoops : Obligations.StartBringsUpBothLoops :=
  fun _ hc he => exec_stepStart_of_enabled hc he

/-- Settles O45: `SHUTDOWN`, where it is enabled. -/
theorem shutdownReleasesTheTransport : Obligations.ShutdownReleasesTheTransport :=
  fun _ hc hr hn => ⟨exec_stepShutdown_of_left hc hr hn, rfl⟩

/-! #### Steps that are not enabled (R212, R231) -/

theorem exec_stepStart_of_not_enabled {s : State} (h : s.conn ≠ .connNone ∨ s.exit ≠ none) :
    exec .stepStart s = .next s := if_neg (not_and_or.mpr h)

theorem exec_stepConnfail_of_not_enabled {s : State} (h : s.conn ≠ .connNone ∨ s.exit ≠ none) :
    exec .stepConnfail s = .next s := if_neg (not_and_or.mpr h)

theorem exec_stepShutdown_of_not_enabled {s : State} (h : s.cst ≠ .cExit ∨ s.rst ≠ .rExit ∨ s.conn ≠ .connUp) :
    exec .stepShutdown s = .next s := if_neg (by simpa only [not_and_or] using h)

/-- Settles O49: each step's lemma for a state in which it is not enabled. -/
theorem stepsNotEnabledDoNothing : Obligations.StepsNotEnabledDoNothing := fun _ =>
  ⟨exec_stepTop_of_not_top, exec_stepIssue_of_not_issue_or_wait,
    fun hc => ⟨exec_stepRx_of_not_wait hc, exec_stepTmo_of_not_wait hc, exec_stepRxerr_of_not_wait hc⟩,
    exec_stepPub_of_not_pub, exec_stepEnd_of_not_end, exec_stepSnap_of_not_top,
    fun h => ⟨exec_stepStart_of_not_enabled h, exec_stepConnfail_of_not_enabled h⟩, exec_stepStop_of_not_connected,
    exec_stepShutdown_of_not_enabled⟩

/-! #### The state after reset (R45, R230, R231) -/

/-- Settles O50: no buffer is open, no field group holds a reading, and the other values are the literals. -/
theorem resetValues : Obligations.ResetValues :=
  have noGroup (k : Sensor) : groupOf State.reset.dash k = none := by cases k <;> rfl
  ⟨fun _ => rfl, rfl, rfl, rfl, rfl, rfl, noGroup, rfl, rfl, rfl, rfl, rfl, rfl, rfl, rfl, rfl, rfl, rfl, rfl, rfl⟩

/-- Settles O51: the two connect results start the loops and decide the exit status; every other step's enabling condition
is computed to be false. -/
theorem afterResetOnlyTheConnectResultIsEnabled : Obligations.AfterResetOnlyTheConnectResultIsEnabled := by
  refine fun os i ha => ⟨fun h => ⟨?start, ?connfail⟩, fun ⟨hstart, hfail⟩ => ?others⟩
  case start =>
    rintro rfl
    exact nomatch congrArg State.cst (Host.Outcome.next.inj h)
  case connfail =>
    rintro rfl
    exact nomatch congrArg State.exit (Host.Outcome.next.inj h)
  case others =>
    cases i <;> simp only [agentOf, ne_eq, not_true_eq_false] at ha
    case stepStart => exact absurd rfl hstart
    case stepConnfail => exact absurd rfl hfail
    all_goals rfl

/-- An empty table is in its canonical form, with no buffer open. -/
theorem tableOk_nil : TableOk [] := ⟨List.Pairwise.nil, nofun⟩

/-- A record with no reading. -/
theorem dashOk_of_empty {d : Dash} (h : ∀ k, groupOf d k = none) : DashOk d :=
  ⟨fun k _ hk => (nomatch (h k).symm.trans hk), fun _ => h⟩

/-- Settles O60: nothing has started, no buffer is open, nothing was read and nothing presented. -/
theorem resetMeetsTheInvariants : Obligations.ResetMeetsTheInvariants := by
  have noGroup (k : Sensor) : groupOf State.reset.dash k = none := by cases k <;> rfl
  have inv : Inv State.reset := {
    config := by decide
    table := tableOk_nil
    dash := dashOk_of_empty noGroup
    snapshot := fun _ h => nomatch h
    control := ⟨fun _ => ⟨rfl, rfl, rfl, .inl rfl⟩, nofun, nofun, nofun, nofun⟩
    collector := .of_idle rfl nofun nofun
    kept := nofun }
  have provenance : Provenance State.reset := {
    record := fun k r hk => nomatch (noGroup k).symm.trans hk
    pending := fun _ h => nomatch h
    copy := fun _ h => nomatch h
    presented := fun before x rest h => by simp [State.reset] at h }
  exact ⟨inv, rfl, rfl, provenance⟩

end Sys2Proof.Machine

/-! ### What a step takes (R43, R87, R152) -/

namespace Sys2Proof.Machine

theorem takeLine_of_ok {s : State} {o : Offer} {rest : List Offer} {i : Instr} (ht : s.trace = o :: rest)
    (hd : decode s.cfg s.reasm o = .ok i) : takeLine s = exec i { s with trace := rest } := by
  simp [takeLine, ht, hd]

theorem takeLine_of_error {s : State} {o : Offer} {rest : List Offer} {r : Reject} (ht : s.trace = o :: rest)
    (hd : decode s.cfg s.reasm o = .error r) : takeLine s = .refused (.undecodable r) := by
  simp [takeLine, ht, hd]

theorem takeLine_of_nil {s : State} (ht : s.trace = []) : takeLine s = .fault .hostSilent := by simp [takeLine, ht]

/-- A kept frame the host offers is taken out of its place among those kept. -/
theorem State.heldOffer_eq_some {s : State} {f : Frame} {rest : List Frame} (h : s.heldOffer = some (f, rest)) :
    ∃ before after, s.held = before ++ f :: after ∧ rest = before ++ after := by
  unfold State.heldOffer at h
  split at h
  · cases h
  · split at h
    · cases h
    · rename_i k _ _ g hg
      obtain ⟨rfl, rfl⟩ : g = f ∧ s.held.eraseIdx k = rest := by simpa using h
      obtain ⟨hk, rfl⟩ := List.getElem?_eq_some_iff.mp hg
      exact ⟨s.held.take k, s.held.drop (k + 1), by simp, List.eraseIdx_eq_take_drop_succ _ _⟩

/-- While a poll waits and the host keeps frames, a step takes one of them or the next line (log 17). -/
theorem step_of_mayOfferHeld {s : State} (h : s.mayOfferHeld = true) :
    (∃ f rest, s.heldOffer = some (f, rest) ∧
      step s = exec (.stepRx f) { s with held := rest, picks := s.picks + 1 }) ∨
    step s = takeLine { s with picks := s.picks + 1 } := by
  unfold step
  rw [if_pos h]
  split
  case h_1 f rest ho => exact .inl ⟨f, rest, ho, rfl⟩
  case h_2 => exact .inr rfl

/-- Settles O54: the two things a step can take, a kept frame by its place and a line by the three cases of its
decoding. -/
theorem stepRunsTheDecodedOffer : Obligations.StepRunsTheDecodedOffer := by
  refine ⟨fun s o rest i hn ht hd => ?runs, fun s o rest r hn ht hd => ?refused, fun s hn ht => ?silent,
    fun s hc hh => ?choice⟩
  case runs => rw [step_eq_takeLine hn, takeLine_of_ok ht hd]
  case refused => rw [step_eq_takeLine hn, takeLine_of_error ht hd]
  case silent => rw [step_eq_takeLine hn, takeLine_of_nil ht]
  case choice =>
    rcases step_of_mayOfferHeld (s := s) (decide_eq_true ⟨hc, hh⟩) with ⟨f, rest, ho, e⟩ | e <;> rw [e]
    · obtain ⟨before, after, hheld, rfl⟩ := State.heldOffer_eq_some ho
      exact .inl ⟨before, after, f, hheld, rfl⟩
    · exact .inr ⟨fun o rest ht => ⟨fun i hd => takeLine_of_ok (by exact ht) hd,
        fun r hd => takeLine_of_error (by exact ht) hd⟩, fun ht => takeLine_of_nil ht⟩

/-- A code above 4 bits is no step code (R87; log 2). -/
theorem decodeStep_of_wide {c : Nat} (hc : 16 ≤ c) (ops : List Byte) : decodeStep c ops = .error .codeTooWide := by
  unfold decodeStep
  split
  case h_17 => rfl
  all_goals omega

/-- Settles O55: the line is taken, and its code decides the refusal before any operand is read. -/
theorem reservedStepCodeIsRefused : Obligations.ReservedStepCodeIsRefused := by
  intro s c ops rest hn ht
  rw [step_eq_takeLine hn]
  refine ⟨fun hc => ?_, fun hc => ?_⟩
  · exact takeLine_of_error ht (hc ▸ rfl)
  · exact takeLine_of_error ht (decodeStep_of_wide hc ops)

/-- Settles O56: each word's fields are computed. -/
theorem sampleWordsDecode : Obligations.SampleWordsDecode := ⟨rfl, rfl, rfl, rfl, rfl, rfl, rfl, rfl, rfl⟩

end Sys2Proof.Machine
